-- ==== Sys2Proof/Word.lean ====
section
/-! DEFINITION. The word types of the FB-220 (00 section 4.1) and the plainest operations on
the fixed-length tables the part is made of. -/

namespace Sys2Proof

/-- One byte on a line or in the store. -/
abbrev Byte := BitVec 8
/-- A 16-bit field. -/
abbrev U16 := BitVec 16
/-- A 32-bit field: clocks, cumulative counters, sequences, machine ids. -/
abbrev U32 := BitVec 32
/-- Hose numbers 0..3. -/
abbrev Hose := Fin 4
/-- Tank numbers 1..8, held as 0..7. -/
abbrev Tank := Fin 8
/-- Station numbers 1..16, held as 0..15. -/
abbrev Station := Fin 16
/-- Lube slots 1..3, held as 0..2. -/
abbrev LubeSlot := Fin 3

/-- A timer: absent when it is not running, else the milliseconds left. -/
abbrev Timer := Option Nat

/-- `v` with entry `i` replaced by `x`. -/
def put {α : Type} {n : Nat} (v : Vector α n) (i : Fin n) (x : α) : Vector α n :=
  v.set i.val x i.isLt

/-- The table whose entry `i` is `f` of entry `i` of `v`. -/
def mapVec {α β : Type} {n : Nat} (f : α → β) (v : Vector α n) : Vector β n :=
  Vector.ofFn fun i => f v[i]

/-- All indices of a table of `n` entries, ascending. -/
def indices (n : Nat) : List (Fin n) := List.finRange n

end Sys2Proof
end

