-- ==== Sys2Proof/Syntax.lean ====
section
/-! DEFINITION. The commands of the FB-220: one constructor of `Instr` per row of
spec/opcode_table.json, in the table's order, with the operands its rule gives it. -/

namespace Sys2Proof

/-- What an analog input reads when it is sampled (R6, R86, R88, R118). -/
inductive Reading where
  | openLine
  | shorted
  | value (v : Int)
  deriving DecidableEq, Repr

/-- The two pulse channels of a meter (R1). -/
inductive Channel where
  | a
  | b
  deriving DecidableEq, Repr

/-- The bay inputs of the shutdown unit (R117). -/
inductive BayInput where
  | estop
  | sump
  | bund (t : Tank)
  deriving DecidableEq, Repr

/-- What the line of a bay input reads (R117). -/
inductive LineReading where
  | normal
  | active
  | openLine
  | shorted
  deriving DecidableEq, Repr

/-- The commands. Request operands are the fields of the request packet as R190 lays them out;
event operands are what the part samples or is told at the event. -/
inductive Instr where
  /-- READ_IDENTITY, R180. -/
  | readIdentity
  /-- READ_STATUS, R180. -/
  | readStatus
  /-- READ_HOSE, R46. -/
  | readHose (hose : Byte)
  /-- READ_TANK_VIEW, R103. -/
  | readTankView (tank : Byte)
  /-- READ_PEER, R153. -/
  | readPeer (station : Byte)
  /-- OPEN_MANUAL_VISIT, R66; hours all ones is none. -/
  | openManualVisit (machine hours : U32)
  /-- CLOSE_VISIT, R72. -/
  | closeVisit
  /-- READ_VISIT, R76. -/
  | readVisit
  /-- ARM_HOSE, R21; options bit 0 is OVERRIDE, preset 0 is none. -/
  | armHose (hose options : Byte) (preset : U32)
  /-- STOP_HOSE, R36. -/
  | stopHose (hose : Byte)
  /-- PAUSE_HOSE, R36. -/
  | pauseHose (hose : Byte)
  /-- RESUME_HOSE, R36. -/
  | resumeHose (hose : Byte)
  /-- READ_ACCOUNT, R76. -/
  | readAccount (machine : U32)
  /-- READ_ACCOUNT_AT, R76. -/
  | readAccountAt (position : Byte)
  /-- READ_RECORD, R162, without or with a sequence. -/
  | readRecord (seq : Option U32)
  /-- CONSUME_RECORDS, R163. -/
  | consumeRecords (seq : U32)
  /-- RECEIPT_START, R101. -/
  | receiptStart (tank : Byte)
  /-- RECEIPT_END, R102. -/
  | receiptEnd (tank : Byte)
  /-- CLEAR_PUMP_LOCKOUT, R112. -/
  | clearPumpLockout (tank : Byte)
  /-- CLEAR_HOSE_FAULT, R120. -/
  | clearHoseFault (hose : Byte)
  /-- CLEAR_LANE_SHUTDOWN, R122. -/
  | clearLaneShutdown
  /-- REQUEST_BAY_RESTORE, R126. -/
  | requestBayRestore
  /-- CLOSE_LANE, R183. -/
  | closeLane
  /-- OPEN_LANE, R184. -/
  | openLane
  /-- RESTART, R185; `steps` is how many steps of the program job in progress were programmed
  when the warm reset came (R154). -/
  | restart (steps : Nat)
  /-- RESET_TAG_INTERFACE, R60. -/
  | resetTagInterface
  /-- READ_EVENTS, R181. -/
  | readEvents
  /-- CLEAR_EVENTS, R181. -/
  | clearEvents (named : U16)
  /-- SET_EVENT_MASK, R181. -/
  | setEventMask (mask : U16)
  /-- SET_CLOCK, R182. -/
  | setClock (value : U32)
  /-- READ_NV_COUNTERS, R164. -/
  | readNvCounters
  /-- CLEAR_NV_COUNTERS, R164. -/
  | clearNvCounters
  /-- CONFIG_WRITE_ENABLE, R172. -/
  | configWriteEnable
  /-- CONFIG_WRITE, R173. -/
  | configWrite (sec : Byte) (offset : U16) (bytes : List Byte)
  /-- CONFIG_READ, R173; `source` is 0 stored, 1 working. -/
  | configRead (sec : Byte) (offset : U16) (length source : Byte)
  /-- CONFIG_LOCK, R174. -/
  | configLock (sec : Byte)
  /-- RELOAD_CONFIG, R170. -/
  | reloadConfig
  /-- CAL_KEY, R175. -/
  | calKey
  /-- CAL_OVERRIDE, R175. -/
  | calOverride (hose : Byte) (k1000 c0 c1 c2 c3 : U32)
  /-- CAL_REVERT, R176. -/
  | calRevert (hose : Byte)
  /-- PROVER_ARM, R45. -/
  | proverArm (hose : Byte) (preset : U32)
  /-- UNKNOWN_REQUEST, R179: a well-framed request whose code is not a request code. -/
  | unknownRequest (code : Byte) (payload : List Byte)
  /-- BAD_FRAME, R179: the bytes of a request packet with bad framing, length or CRC-8. -/
  | badFrame (packet : List Byte)
  /-- FETCH, R178: a transaction of `count` bytes that begins 0x00. -/
  | fetch (count : Nat)
  /-- COLD_RESET, R185; `steps` as for RESTART. -/
  | coldReset (steps : Nat)
  /-- WARM_RESET, R185; `steps` as for RESTART. -/
  | warmReset (steps : Nat)
  /-- CONFIG_LOADING_COMPLETE, R168. -/
  | configLoadingComplete
  /-- START_UP_FIRST_BEACON, R186. -/
  | startUpFirstBeacon
  /-- CLOCK_TICK, R182. -/
  | clockTick
  /-- PARITY_CHECK, R171. -/
  | parityCheck
  /-- METER_PULSE, R1. -/
  | meterPulse (hose : Hose) (channel : Channel)
  /-- MEASUREMENT_INTERVAL_END, R1, with the hose temperature input as it reads. -/
  | measurementIntervalEnd (hose : Hose) (temperature : Reading)
  /-- CREEP_QUIET_TIMER_EXPIRY, R17. -/
  | creepQuietTimerExpiry (hose : Hose)
  /-- HOOK_SWITCH_CHANGE, R20; `off` is the new raw position, true off the hook. -/
  | hookSwitchChange (hose : Hose) (off : Bool)
  /-- LIFT, R20. -/
  | lift (hose : Hose)
  /-- HANG, R20. -/
  | hang (hose : Hose)
  /-- ARM_TIMER_EXPIRY, R23. -/
  | armTimerExpiry (hose : Hose)
  /-- START_TIMER_EXPIRY, R25. -/
  | startTimerExpiry (hose : Hose)
  /-- NO_FLOW_TIMER_EXPIRY, R32. -/
  | noFlowTimerExpiry (hose : Hose)
  /-- HOLD_TIMER_EXPIRY, R35. -/
  | holdTimerExpiry (hose : Hose)
  /-- TAG_LOSS_TIMER_EXPIRY, R35. -/
  | tagLossTimerExpiry (hose : Hose)
  /-- SETTLE_QUIET_TIMER_EXPIRY, R41. -/
  | settleQuietTimerExpiry (hose : Hose)
  /-- SETTLE_LIMIT_TIMER_EXPIRY, R41. -/
  | settleLimitTimerExpiry (hose : Hose)
  /-- RAMP_TICK, R28, with the valve position feedback as it reads (per mille). -/
  | rampTick (hose : Hose) (feedback : Reading)
  /-- VALVE_DISAGREEMENT_TIMER_EXPIRY, R118. -/
  | valveDisagreementTimerExpiry (hose : Hose)
  /-- FIELD_STABLE_TIME_EXPIRY, R49, with the coil-load sample. -/
  | fieldStableTimeExpiry (tagPresent : Bool)
  /-- TAG_RETRY_TIMER_EXPIRY, R49. -/
  | tagRetryTimerExpiry
  /-- TAG_SEND_COMPLETE, R52. -/
  | tagSendComplete
  /-- TAG_BYTE_RECEIVED, R50: the byte and its parity bit. -/
  | tagByteReceived (byte : Byte) (parity : Bool)
  /-- TAG_ANSWER_TIMEOUT, R50. -/
  | tagAnswerTimeout
  /-- TAG_ANSWER_END, R50. -/
  | tagAnswerEnd
  /-- TAG_PRESENCE_SAMPLE, R57, with the coil-load sample. -/
  | tagPresenceSample (tagPresent : Bool)
  /-- QUERY_TIMER_EXPIRY, R71. -/
  | queryTimerExpiry
  /-- IDLE_TIMER_EXPIRY, R72. -/
  | idleTimerExpiry
  /-- PROBE_SAMPLE, R86, with the level probe (mm) and tank temperature inputs as they read. -/
  | probeSample (tank : Tank) (level temperature : Reading)
  /-- GAUGE_PERIOD_EXPIRY, R91. -/
  | gaugePeriodExpiry (tank : Tank)
  /-- RECONCILIATION_EVALUATION, R99. -/
  | reconciliationEvaluation (tank : Tank)
  /-- DEMAND_EXPIRY_TIMER_EXPIRY, R105. -/
  | demandExpiryTimerExpiry (tank : Tank) (station : Station)
  /-- PRESSURE_FEEDBACK_CHANGE, R108; the input's new state. -/
  | pressureFeedbackChange (tank : Tank) (on : Bool)
  /-- PUMP_START_TIMER_EXPIRY, R108. -/
  | pumpStartTimerExpiry (tank : Tank)
  /-- PRESSURE_LOSS_TIMER_EXPIRY, R109. -/
  | pressureLossTimerExpiry (tank : Tank)
  /-- RUN_ON_TIMER_EXPIRY, R109. -/
  | runOnTimerExpiry (tank : Tank)
  /-- REST_TIMER_EXPIRY, R107. -/
  | restTimerExpiry (tank : Tank)
  /-- BAY_INPUT_CHANGE, R117, with what the line reads from here on. -/
  | bayInputChange (input : BayInput) (line : LineReading)
  /-- BAY_INPUT_DEBOUNCE_EXPIRY, R117. -/
  | bayInputDebounceExpiry (input : BayInput)
  /-- BEACON_PERIOD_EXPIRY, R140. -/
  | beaconPeriodExpiry
  /-- FRAME_SEND_START, R145. -/
  | frameSendStart
  /-- ARBITRATION_LOST, R137. -/
  | arbitrationLost
  /-- SEND_ERROR, R138. -/
  | sendError
  /-- FRAME_SENT, R138. -/
  | frameSent
  /-- WITHDRAWAL_TIMER_EXPIRY, R139. -/
  | withdrawalTimerExpiry
  /-- FRAME_RECEIVED, R135: identifier, length, payload, CRC-8 and end field as read. -/
  | frameReceived (ident length : Byte) (payload : List Byte) (crc endField : Byte)
  /-- SPILL_FRAME_TAKEN, R128. -/
  | spillFrameTaken
  /-- RESTORE_FRAME_TAKEN, R128. -/
  | restoreFrameTaken
  /-- PUMP_FRAME_TAKEN, R114. -/
  | pumpFrameTaken
  /-- GAUGE_FRAME_TAKEN, R93. -/
  | gaugeFrameTaken
  /-- FILL_SUMMARY_TAKEN, R79. -/
  | fillSummaryTaken
  /-- ACCOUNT_QUERY_TAKEN, R70. -/
  | accountQueryTaken
  /-- ACCOUNT_REPLY_TAKEN, R69. -/
  | accountReplyTaken
  /-- BEACON_TAKEN, R148. -/
  | beaconTaken
  /-- SILENCE_TIMER_EXPIRY, R149. -/
  | silenceTimerExpiry (station : Station)
  /-- RECORD_WRITE_COMPLETE, R157. -/
  | recordWriteComplete
  /-- CHECKPOINT_WRITE_COMPLETE, R26. -/
  | checkpointWriteComplete
  /-- PERSISTED_TOTALS_UPDATE_COMPLETE, R165. -/
  | persistedTotalsUpdateComplete
  /-- CONSUME_MARKS_COMPLETE, R163. -/
  | consumeMarksComplete
  /-- CONFIG_WRITE_COMPLETE, R173. -/
  | configWriteComplete
  /-- LOCK_COMPLETE, R174. -/
  | lockComplete
  /-- RECEPTION_ENDED_LENGTH_ERROR, R135; the length byte that read above 32. -/
  | receptionEndedLengthError (length : Byte)
  deriving DecidableEq, Repr

end Sys2Proof
end

