-- ==== Sys2Proof/Machine/State.lean ====
section
/-! DEFINITION. The state of the FB-220: plain data, every item the spec gives the part, and
`State.reset`, the part right after power-on as shipped. -/

namespace Sys2Proof.Machine

/-- Why a step stops with a fault. Nothing in the model does: the part turns every request it
cannot serve into a reply and every fault it finds into state. The one reason is kept for the
host's interface; no meaning answers it (safe). -/
inductive Fault where
  /-- Never raised (safe: no run can end in it). -/
  | unreachable
  deriving DecidableEq, Repr

/-- Why a command is refused by the model. -/
inductive Refusal where
  /-- Raised by an arm of `exec` whose command has no meaning yet; there is none (safe). -/
  | notModelled (mnemonic : String)
  deriving DecidableEq, Repr

/-! ## Named sets, in the order the spec first lists them (R187 numbers them from 1) -/

/-- Section 2.1. -/
inductive FillState where
  | idle | armed | starting | flowing | slowing | held | settling | closing
  deriving DecidableEq, Repr

/-- Section 2.1. -/
inductive FillKind where
  | fill | prover
  deriving DecidableEq, Repr

/-- Section 3.5. -/
inductive MachineClass where
  | haul | support | priority
  deriving DecidableEq, Repr

/-- R37's end conditions in order, and INTERRUPTED (section 9.4, R187). -/
inductive EndCause where
  | preset | operatorStop | nozzleHung | noFlow | holdTimeout | tagChanged | shutdown | hoseFault
  | limit | configFault | laneClosing | interrupted
  deriving DecidableEq, Repr

/-- Last outcome of a fill other than NONE (section 2.1). -/
inductive FillOutcome where
  | ended (c : EndCause) | armTimeout | pumpNotReady | tagNotReady | visitEnded
  deriving DecidableEq, Repr

/-- R6. -/
inductive TempStatus where
  | valid | default
  deriving DecidableEq, Repr

/-- Section 3.1, WAITING split by its reason. -/
inductive TagAct where
  | off | powering | waitingNoTag | waitingFaulted | resetting | exchanging | ready | lost
  deriving DecidableEq, Repr

/-- Section 3.1. -/
inductive TagReport where
  | identified | confirmed | changed | lost | fault
  deriving DecidableEq, Repr

/-- Section 3.1. -/
inductive TagReason where
  | timeout | parity | length | overrun | headerCrc | blockCrc | serial | content
  deriving DecidableEq, Repr

/-- Section 4.1; `opened` is OPEN. -/
inductive VisitState where
  | none | identifying | querying | opened | ending
  deriving DecidableEq, Repr

/-- Section 4.1. -/
inductive VisitOrigin where
  | tag | manual
  deriving DecidableEq, Repr

/-- Last visit outcome other than NONE (section 4.1). -/
inductive VisitOutcome where
  | closed | idleTimeout | laneClosing | tagInUse | duplicateTag | configFault | duplicateStation
  deriving DecidableEq, Repr

/-- Section 4.8. -/
inductive AccountSource where
  | own | summary | reply | tagOnly
  deriving DecidableEq, Repr

/-- Section 5.2. -/
inductive StockState where
  | normal | reserve | lowLow | gaugeFault
  deriving DecidableEq, Repr

/-- Section 5.2. -/
inductive ReconState where
  | balanced | watch | lossAlarm | receiving | suspended
  deriving DecidableEq, Repr

/-- Section 6.1. -/
inductive PumpState where
  | stopped | starting | running | runOn | resting | lockedOut
  deriving DecidableEq, Repr

/-- Section 6.1. -/
inductive LockReason where
  | noPressure | pressureLost | dryRun
  deriving DecidableEq, Repr

/-- Section 6.8: UNKNOWN, or a pump state with its lockout reason. -/
inductive PumpView where
  | unknown
  | known (state : PumpState) (reason : Option LockReason)
  deriving DecidableEq, Repr

/-- The bay causes with their detail (section 7.1). -/
inductive BayCause where
  | estop | sump | bund (t : Tank) | stockLoss | excessFlow (h : Hose)
  deriving DecidableEq, Repr

/-- R134. -/
inductive LineState where
  | idle | wait | receiving | sending
  deriving DecidableEq, Repr

/-- Section 9.4. -/
inductive RecordKind where
  | fill | prover | creep | receipt
  deriving DecidableEq, Repr

/-- Section 10.1. -/
inductive Section where
  | station | hoses | tanks | products | rules
  deriving DecidableEq, Repr

/-- R190, in order of their codes. -/
inductive Status where
  | done | busy | refused | badFrame | unknownRequest
  deriving DecidableEq, Repr

/-- R179's reasons of REFUSED, in order. -/
inductive Reason where
  | state | shutdown | logFull | reserve | homeSilent | tagInUse | locked | notHome | causeActive
  | configFault | hoseFault | range
  deriving DecidableEq, Repr

/-- The twelve event flags of section 11.2, in order. -/
inductive EventFlag where
  | started | fillClosed | visit | tag | shutdown | pump | stock | link | nv | config | clockUnset
  | temp
  deriving DecidableEq, Repr

/-- R185. -/
inductive ResetKind where
  | cold | warm
  deriving DecidableEq, Repr

/-! ## Meter units and fills -/

/-- Flags an interval gives its destination (R1, R6, R10, R15). -/
structure VolFlags where
  overrange : Bool
  tempDefault : Bool
  limit : Bool
  deriving DecidableEq, Repr

/-- R14: an open creep accumulation, with the tank and product of the last interval delivered to
it; `raised` once it has raised CREEP (R16). -/
structure Creep where
  tank : Tank
  product : Byte
  gross : Nat
  net : Nat
  grossRes : Nat
  netRes : Nat
  tempSum : Int
  flags : VolFlags
  startTime : U32
  quietT : Timer
  raised : Bool
  deriving DecidableEq, Repr

/-- R17: a closed creep; `deferred` while its job waits for log space (R160). -/
structure ClosedCreep where
  tank : Tank
  product : Byte
  gross : Nat
  net : Nat
  tempSum : Int
  startTime : U32
  endTime : U32
  flags : VolFlags
  deferred : Bool
  deriving DecidableEq, Repr

/-- R19: the meter fields that READ_HOSE returns, as they stood at the last interval end. -/
structure MeterView where
  band : Fin 4
  keff : Nat
  tempStatus : TempStatus
  t10 : Int
  n : Nat
  mismatchRun : Nat
  excessRun : Nat
  accumulating : Bool
  gross : Nat
  net : Nat
  waiting : Bool
  deriving DecidableEq, Repr

/-- Section 1.1: a meter unit; `shown` is what READ_HOSE returns (R19). -/
structure Meter where
  chA : Nat
  chB : Nat
  band : Fin 4
  keff : Nat
  tempStatus : TempStatus
  lastT10 : Int
  lastN : Nat
  mismatchRun : Nat
  excessRun : Nat
  creep : Option Creep
  jobCreep : Option ClosedCreep
  waitCreep : Option ClosedCreep
  shown : MeterView
  interval : Timer
  deriving DecidableEq, Repr

/-- The machine fields a fill takes from the visit (R22). -/
structure MachineFields where
  machineId : U32
  cls : Option MachineClass
  hours : Option Nat
  manual : Bool
  deriving DecidableEq, Repr

/-- R33: the hold cause set. -/
structure HoldSet where
  pumpLost : Bool
  homeSilent : Bool
  tagLost : Bool
  operator : Bool
  deriving DecidableEq, Repr

/-- The members of the hold cause set (R33). -/
inductive HoldCause where
  | pumpLost | homeSilent | tagLost | operator
  deriving DecidableEq, Repr

/-- The flags of a fill (section 2.1, R77). -/
structure FillFlags where
  overrange : Bool
  tempDefault : Bool
  limit : Bool
  settleTimeout : Bool
  override : Bool
  manual : Bool
  hoursNotAdvanced : Bool
  hoursGap : Bool
  deriving DecidableEq, Repr

/-- Section 2.1: a fill context. The product kind is LUBE exactly when `lubeSlot` is present. -/
structure Fill where
  state : FillState
  kind : Option FillKind
  tank : Option Tank
  product : Option Byte
  lubeSlot : Option LubeSlot
  machine : Option MachineFields
  preset : Option Nat
  seq : Option U32
  gross : Nat
  net : Nat
  grossRes : Nat
  netRes : Nat
  tempSum : Int
  startTime : Option U32
  endTime : Option U32
  valveCmd : Nat
  rampTarget : Nat
  released : Bool
  holds : HoldSet
  endCause : Option EndCause
  flags : FillFlags
  nextMark : Option Nat
  armT : Timer
  startT : Timer
  noFlowT : Timer
  holdT : Timer
  tagLossT : Timer
  settleQuietT : Timer
  settleLimitT : Timer
  lastOutcome : Option FillOutcome
  deriving DecidableEq, Repr

/-- R20: a hook switch; `debounced` is absent until the first position is taken up. -/
structure Hook where
  raw : Bool
  debounced : Option Bool
  timer : Timer
  deriving DecidableEq, Repr

/-- R118: the valve watch of a hose. -/
structure ValveWatch where
  timer : Timer
  present : Bool
  deriving DecidableEq, Repr

/-- R119: the hose fault set. -/
structure HoseFaults where
  meter : Bool
  valve : Bool
  deriving DecidableEq, Repr

/-- R175: a calibration override, with the parity bit of each of its five words (R171). -/
structure Override where
  k1000 : U32
  c0 : U32
  c1 : U32
  c2 : U32
  c3 : U32
  parity : List Bool
  deriving DecidableEq, Repr

/-- What the part keeps per hose. -/
structure HoseUnit where
  meter : Meter
  fill : Fill
  ramp : Timer
  hook : Hook
  valve : ValveWatch
  faults : HoseFaults
  override : Option Override
  deriving DecidableEq, Repr

/-! ## Tag interface, visit, accounts -/

/-- R51: the identity header. -/
structure TagHeader where
  serial : U32
  format : Byte
  blockNumber : Byte
  deriving DecidableEq, Repr

/-- R55: an accepted tag data block, its hours and fuel capacity as adjusted there; `hoursValid`
and `format` are its bytes 17 and 22. -/
structure TagBlock where
  machineId : U32
  cls : MachineClass
  fuelCap : Nat
  lubeCap : Vector Nat 3
  hours : Option Nat
  hoursValid : Byte
  serial : U32
  format : Byte
  deriving DecidableEq, Repr

/-- Section 3.1: the tag interface. -/
structure Tag where
  act : TagAct
  coil : Bool
  txFifo : List Byte
  lastMark : Option Nat
  rxFifo : List (Byte × Bool)
  overrun : Bool
  header : Option TagHeader
  block : Option TagBlock
  retry : Nat
  absentRun : Nat
  presentRun : Nat
  absenceSeen : Bool
  lastReport : Option TagReport
  lastFault : Option TagReason
  reads : Nat
  retries : Nat
  faults : Nat
  overruns : Nat
  hoursNotAdopted : Nat
  sending : Bool
  fieldT : Timer
  retryT : Timer
  windowT : Timer
  gapT : Timer
  sampleT : Timer
  airOut : List Byte
  deriving DecidableEq, Repr

/-- R63: the tag identity of a visit. -/
structure TagIdentity where
  serial : U32
  machineId : U32
  deriving DecidableEq, Repr

/-- R189: the note that an adopted reply's lube part is awaited. -/
structure ReplyNote where
  station : Station
  fillCount : Nat
  stale : Bool
  deriving DecidableEq, Repr

/-- Section 4.1: the visit. -/
structure Visit where
  state : VisitState
  origin : Option VisitOrigin
  tagId : Option TagIdentity
  machineId : Option U32
  cls : Option MachineClass
  fuelCap : Option Nat
  lubeCap : Option (Vector Nat 3)
  hours : Option Nat
  barred : Bool
  position : Option Nat
  queryT : Timer
  idleT : Timer
  lastOutcome : Option VisitOutcome
  note : Option ReplyNote
  deriving DecidableEq, Repr

/-- Section 4.8: an account record. -/
structure Account where
  machineId : U32
  cls : MachineClass
  fuelCap : Nat
  lubeCap : Vector Nat 3
  lastHours : Option Nat
  rate : Option Nat
  fillCount : Nat
  totalFuel : U32
  hoursAccounted : U32
  lubeTotals : Vector U32 3
  lubeRes : Vector Nat 3
  source : AccountSource
  stale : Bool
  lastUsed : U32
  inUse : Bool
  deriving DecidableEq, Repr

/-- The account table: records by position, positions strictly rising, an unlisted one free. -/
structure Accounts where
  records : List (Nat × Account)
  lastSummary : Vector U32 16
  conflicts : Nat
  lateReplies : Nat
  evictions : Nat
  deriving DecidableEq, Repr

/-! ## Tanks and pumps -/

/-- Litres with the mL drawn and not yet subtracted, 0..999 (R95). -/
structure Stock where
  litres : Nat
  ml : Nat
  deriving DecidableEq, Repr

/-- R93: the last GAUGE items of a view. -/
structure LastGauge where
  level : Nat
  recon : ReconState
  receipt : Bool
  overStrap : Bool
  tempDefault : Bool
  arrived : U32
  deriving DecidableEq, Repr

/-- Section 5.7: a tank view. `ownTotal` is the station's own last draw total while no number has
been taken up; with one it is the entry of that number (R96, log 6). -/
structure TankView where
  stock : Option Stock
  state : StockState
  degraded : Bool
  noValue : Bool
  lastGauge : Option LastGauge
  pump : PumpView
  lastTotals : Vector (Option U32) 16
  ownTotal : Option U32
  anomalies : Nat
  foreign : Nat
  deriving DecidableEq, Repr

/-- R88, R89: a gauged value. -/
structure Gauged where
  litres : Nat
  ml : Nat
  degraded : Bool
  deriving DecidableEq, Repr

/-- R98: the book stock, signed litres less the mL remainder. -/
structure Book where
  litres : Int
  ml : Nat
  deriving DecidableEq, Repr

/-- R101: a receipt in progress. -/
structure Receipt where
  startGauged : Nat
  startDegraded : Bool
  startOverStrap : Bool
  startTempDefault : Bool
  startLevel : Nat
  startTime : U32
  draws : Nat
  deriving DecidableEq, Repr

/-- One tank of the TANKS section; all 24 points of the strapping table are stored (R187). -/
structure TankCfg where
  product : Byte
  capacity : U32
  reserve : U32
  lowLow : U32
  home : Byte
  strapCount : Byte
  strap : Vector (U16 × U32) 24
  lossThreshold : U32
  lossProportion : U16
  deriving DecidableEq, Repr

/-- Section 5.2: a home tank unit; `cfg` holds its working values since the last probe sample
(R85, log 55). -/
structure HomeUnit where
  cfg : TankCfg
  level : Option Nat
  t10 : Int
  tempStatus : TempStatus
  gross : Option Nat
  overStrap : Bool
  gauged : Option Gauged
  invalidRun : Nat
  fault : Bool
  stockState : StockState
  book : Option Book
  throughput : U32
  throughputMl : Nat
  recon : ReconState
  lossRun : Nat
  variance : Int
  receipt : Option Receipt
  offered : Bool
  sampleT : Timer
  gaugeT : Timer
  evalT : Timer
  deriving DecidableEq, Repr

/-- Section 6.1: a pump controller; `remote` holds the expiry timer of each remote member of the
demand set. -/
structure Pump where
  own : Bool
  remote : Vector Timer 16
  state : PumpState
  reason : Option LockReason
  startT : Timer
  lossT : Timer
  runOnT : Timer
  restT : Timer
  starts : Nat
  lockouts : Nat
  deriving DecidableEq, Repr

/-! ## Shutdown unit -/

/-- R117: a bay input; `sinceReset` while the raw input has read active without interruption
since the reset (R132). -/
structure InputUnit where
  raw : Bool
  debounced : Bool
  timer : Timer
  sinceReset : Bool
  deriving DecidableEq, Repr

/-- R128: a remote member of the source set. -/
structure Source where
  clear : Nat
  causes : Option (List (Byte × Byte))
  deriving DecidableEq, Repr

/-- Section 7.2: the shutdown unit. The own number is in the source set exactly while `origin`
is present (R130). -/
structure Shutdown where
  estop : InputUnit
  sump : InputUnit
  bund : Vector InputUnit 8
  latch : Bool
  creepList : Vector Bool 4
  origin : Option (List BayCause)
  sources : Vector (Option Source) 16
  spillsSent : Nat
  restoresSent : Nat
  bayShutdowns : Nat
  deriving DecidableEq, Repr

/-! ## Bay link -/

/-- The fields of a beacon (R141, R188) as bytes and nibbles carry them. -/
structure BeaconFields where
  lane : Nat
  visit : Nat
  spill : Bool
  laneShut : Bool
  configFault : Bool
  rejoined : Bool
  epoch : U16
  machineId : U32
  demand : Byte
  draws : List (Byte × U32)
  deriving DecidableEq, Repr

/-- R91: what a GAUGE frame carries but its pump state. -/
structure GaugeFields where
  gauged : Option Nat
  level : Nat
  state : StockState
  recon : ReconState
  degraded : Bool
  overStrap : Bool
  tempDefault : Bool
  deriving DecidableEq, Repr

/-- R142: what a FILL_SUMMARY carries. -/
structure SummaryFields where
  seq : U32
  machineId : U32
  lubeSlot : Option LubeSlot
  net : U32
  hours : Nat
  dhUsed : Nat
  rate : Option Nat
  fillCount : Nat
  deriving DecidableEq, Repr

/-- A frame waiting to be sent, by kind (section 8.4). A summary names its record's log slot; the
two parts of a reply are R189's. -/
inductive TxFrame where
  | spill (causes : List BayCause)
  | restore
  | pump (t : Tank) (state : PumpState) (reason : Option LockReason)
  | gauge (t : Tank) (g : GaugeFields)
  | summary (slot : Nat) (f : SummaryFields)
  | query (machineId : U32)
  | reply1 (a : Account)
  | reply2 (a : Account)
  | beacon (b : BeaconFields)
  deriving DecidableEq, Repr

/-- A place of the transmit queue; `sending` during an attempt (R143). -/
structure TxEntry where
  frame : TxFrame
  sending : Bool
  deriving DecidableEq, Repr

/-- A frame in the receive queue: its identifier and payload (R146). -/
structure RxFrame where
  ident : Byte
  payload : List Byte
  deriving DecidableEq, Repr

/-- Section 8.8: a peer table entry. -/
structure Peer where
  heard : Bool
  epoch : Option U16
  lastAt : Option U32
  silenceT : Timer
  fields : Option BeaconFields
  silent : Bool
  epochChanges : Nat
  rejoins : Nat
  silences : Nat
  deriving DecidableEq, Repr

/-- The counts of R153. -/
structure LinkCounts where
  framesSent : Nat
  sendErrors : Nat
  arbLosses : Nat
  withdrawals : Nat
  displaced : Nat
  queriesDropped : Nat
  repliesDropped : Nat
  rxOverruns : Nat
  crcErrors : Nat
  formatErrors : Nat
  unknownKinds : Nat
  ownFrames : Nat
  deriving DecidableEq, Repr

/-- The bay link controller (chapter 8). `number` and `rate` are those last taken up, `next` those
of a reload that wait for the next IDLE (R152); `dropped` from a dropped frame to the next IDLE,
while no start is taken (R135); `newBeacon` once a beacon has entered the queue since the last attempt
began (R145). -/
structure Link where
  line : LineState
  idleCount : Nat
  dropped : Bool
  txQueue : List TxEntry
  pendPump : List Tank
  pendGauge : List Tank
  pendBeacon : Option BeaconFields
  newBeacon : Bool
  rxQueue : List RxFrame
  retry : Nat
  withdrawn : Bool
  withdrawT : Timer
  rejoin : Bool
  dupStation : Bool
  epoch : U16
  number : Option Station
  rate : Byte
  next : Option (Option Station × Byte)
  peers : Vector Peer 16
  ownBeacon : Option BeaconFields
  beaconT : Timer
  wire : List Byte
  counts : LinkCounts
  deriving DecidableEq, Repr

/-! ## Nonvolatile store and record log -/

/-- The STATION section, its items as stored (section 10.1, R187). -/
structure StationCfg where
  number : Byte
  rate : Byte
  homed : Byte
  deriving DecidableEq, Repr

/-- One hose of the HOSES section. -/
structure HoseCfg where
  tank : Byte
  product : Byte
  k1000 : U32
  t1 : U16
  t2 : U16
  t3 : U16
  c0 : U32
  c1 : U32
  c2 : U32
  c3 : U32
  burst : U16
  creepLimit : U32
  full : U16
  slow : U16
  minimum : U16
  stepUp : U16
  stepDown : U16
  slowDown : U32
  closeAhead : U32
  noFlow : Byte
  lubeSlot : Byte
  deriving DecidableEq, Repr

/-- One code of the PRODUCTS section. -/
structure ProductCfg where
  kind : Byte
  alpha : U16
  deriving DecidableEq, Repr

/-- The ACCOUNT RULES section. -/
structure RulesCfg where
  margin : Byte
  fixedMargin : U32
  topUp : U32
  fuelDefault : Vector U16 3
  lubeDefault : Vector U16 3
  deriving DecidableEq, Repr

/-- The five sections. -/
structure ConfigData where
  station : StationCfg
  hoses : Vector HoseCfg 4
  tanks : Vector TankCfg 8
  products : Vector ProductCfg 16
  rules : RulesCfg
  deriving DecidableEq, Repr

/-- R192's record flags. -/
structure RecordFlags where
  fill : FillFlags
  negative : Bool
  startDegraded : Bool
  endDegraded : Bool
  overStrap : Bool
  deriving DecidableEq, Repr

/-- R78: what crediting returns for the record. -/
structure Credit where
  dhUsed : Nat
  rate : Option Nat
  fillCount : Nat
  deriving DecidableEq, Repr

/-- R102: the receipt fields of a record. -/
structure ReceiptFields where
  startGauged : Nat
  endGauged : Nat
  startLevel : Nat
  endLevel : Nat
  draws : Nat
  received : Int
  deriving DecidableEq, Repr

/-- Section 9.4: the fields of a record; what a kind does not hold is absent. -/
structure Record where
  seq : U32
  kind : RecordKind
  hose : Option Hose
  tank : Tank
  product : Byte
  lubeSlot : Option LubeSlot
  machineId : Option U32
  cls : Option MachineClass
  hours : Option Nat
  preset : Option Nat
  net : Nat
  gross : Option Nat
  tempAvg : Option Int
  startTime : U32
  endTime : U32
  endCause : Option EndCause
  credit : Option Credit
  flags : RecordFlags
  receipt : Option ReceiptFields
  damaged : Bool
  deriving DecidableEq, Repr

/-- A log slot that holds a complete record, with its other marks (section 9.1). -/
structure LogEntry where
  record : Record
  totalled : Bool
  consumed : Bool
  deriving DecidableEq, Repr

/-- R44: the fields of a checkpoint. -/
structure Checkpoint where
  seq : U32
  tank : Tank
  product : Byte
  machine : Option MachineFields
  preset : Nat
  net : Nat
  gross : Nat
  startTime : U32
  flags : FillFlags
  deriving DecidableEq, Repr

/-- A checkpoint copy that is not clear (section 9.1). -/
structure CheckpointCopy where
  data : Checkpoint
  complete : Bool
  writes : Nat
  deriving DecidableEq, Repr

/-- A tank word: the persisted draw total and the applied sequence (section 9.1). -/
structure TankWord where
  total : U32
  applied : U32
  deriving DecidableEq, Repr

/-- The areas of the store that hold words (section 9.1). The consumed marks, which that section holds
separately, have none of their own: an error of one is an error of its record's slot (log 90). -/
inductive Area where
  | config (sec : Section)
  | lock (sec : Section)
  | slot (n : Nat)
  | checkpoint (h : Hose) (copyB : Bool)
  | total (t : Tank)
  | epoch
  | highWater
  deriving DecidableEq, Repr

/-- R164: a word of the store that reads with one wrong bit, or with two (`double`). -/
structure StoreError where
  area : Area
  word : Nat
  double : Bool
  deriving DecidableEq, Repr

/-- The nonvolatile store (section 9.1). The log lists its slots that hold a complete record, slot
numbers strictly rising; every other slot is FREE. `highWaterBefore` is the model's own (log 45): the
high-water before an entry checkpoint that a reset cut behind its first word, until one is whole. -/
structure Store where
  config : ConfigData
  locks : Vector Bool 5
  log : List (Nat × LogEntry)
  copyA : Vector (Option CheckpointCopy) 4
  copyB : Vector (Option CheckpointCopy) 4
  totals : Vector TankWord 8
  epoch : U16
  highWater : U32
  highWaterBefore : Option U32
  errs : List StoreError
  deriving DecidableEq, Repr

/-- Which block a record write job serves (R156). -/
inductive RecordOwner where
  | fill (h : Hose)
  | creep (h : Hose)
  | receipt
  | interrupted (h : Hose)
  deriving DecidableEq, Repr

/-- The program jobs (R156); a totals update of recovery writes a tank word, the totalled marker of
a slot, or both (R165). -/
inductive Job where
  | record (owner : RecordOwner) (r : Record)
  | checkpoint (h : Hose) (entry : Bool) (c : Checkpoint)
  | epochUpdate (e : U16)
  | totalUpdate (t : Tank) (w : Option TankWord) (slot : Option Nat)
  | consume (slots : List Nat) (left : Nat)
  | configWrite (sec : Section) (offset : Nat) (bytes : List Byte)
  | lock (sec : Section)
  deriving DecidableEq, Repr

/-- What the record write job in progress has taken at its first step (R157, R160): its slot and
sequence, or its deferral; and how many READ_RECORD have come since (log 16). -/
structure RecordRun where
  slot : Option Nat
  seq : U32
  reads : Nat
  deriving DecidableEq, Repr

/-- What start-up recovery waits for (R165, R166): the epoch update; a tank word update, with the
tank words still to be written back; an INTERRUPTED record's write, with the hoses still to do. -/
inductive Recovery where
  | nothing
  | epoch
  | totals (rest : List Tank)
  | record (rest : List Hose)
  deriving DecidableEq, Repr

/-- The volatile side of the store and the record log (chapter 9). -/
structure Nv where
  queue : List Job
  held : List Job
  run : Option RecordRun
  sc : Nat
  dc : Nat
  scCap : Option (Area × Nat)
  dcCap : Option (Area × Nat)
  reservations : Nat
  nextSeq : U32
  totals : Vector U32 8
  unannounced : List Nat
  recovery : Recovery
  deriving DecidableEq, Repr

/-! ## Configuration and terminal block -/

/-- Why a load is under way (R168). -/
inductive LoadCause where
  | reset | request | automatic
  deriving DecidableEq, Repr

/-- The configuration block (chapter 10). -/
structure Cfg where
  data : ConfigData
  valid : Vector Bool 5
  parity : Vector (List Bool) 5
  homeOf : Vector (Option Station) 8
  fault : Bool
  parityFault : Bool
  reloadPending : Bool
  parityFaults : Nat
  parityT : Timer
  loading : Option LoadCause
  deriving DecidableEq, Repr

/-- A reply: the code of the request answered, the status, and the bytes after the code (R190). -/
structure Reply where
  code : Byte
  status : Status
  items : List Byte
  deriving DecidableEq, Repr

/-- The terminal line (section 11.1); `engine` is the code of the request being executed. -/
structure Term where
  slot : Option Reply
  ready : Bool
  engine : Option Byte
  latch : Bool
  key : Bool
  dataOut : List Byte
  deriving DecidableEq, Repr

/-- The steps of start-up (R186): loading, recovery, waiting for the first beacon, ended. -/
inductive Phase where
  | loading | recovery | beacon | running
  deriving DecidableEq, Repr

/-- The state of the FB-220. `pending` is the model's queue of commands, first in, first out. -/
structure State where
  pending : List Instr
  hoses : Vector HoseUnit 4
  tag : Tag
  visit : Visit
  accounts : Accounts
  views : Vector TankView 8
  home : Vector (Option HomeUnit) 8
  pumps : Vector (Option Pump) 8
  pressure : Vector Bool 8
  shut : Shutdown
  link : Link
  store : Store
  nv : Nv
  cfg : Cfg
  term : Term
  flags : BitVec 12
  mask : BitVec 12
  clock : U32
  clockUnset : Bool
  laneClosed : Bool
  closePending : Bool
  phase : Phase
  firstBeaconT : Timer
  lastReset : ResetKind
  deriving DecidableEq, Repr

/-! ## Reset values -/

/-- No flag set. -/
def FillFlags.clear : FillFlags :=
  { overrange := false, tempDefault := false, limit := false, settleTimeout := false,
    override := false, manual := false, hoursNotAdvanced := false, hoursGap := false }

/-- The empty hold cause set. -/
def HoldSet.empty : HoldSet :=
  { pumpLost := false, homeSilent := false, tagLost := false, operator := false }

/-- R19, until the first interval end. -/
def MeterView.reset : MeterView :=
  { band := 0, keff := 0, tempStatus := .valid, t10 := 150, n := 0, mismatchRun := 0,
    excessRun := 0, accumulating := false, gross := 0, net := 0, waiting := false }

/-- R19; `keff` is computed when configuration loading completes (log 3). -/
def Meter.reset : Meter :=
  { chA := 0, chB := 0, band := 0, keff := 0, tempStatus := .valid, lastT10 := 150, lastN := 0,
    mismatchRun := 0, excessRun := 0, creep := none, jobCreep := none, waitCreep := none,
    shown := MeterView.reset, interval := none }

/-- R46. -/
def Fill.reset : Fill :=
  { state := .idle, kind := none, tank := none, product := none, lubeSlot := none, machine := none,
    preset := none, seq := none, gross := 0, net := 0, grossRes := 0, netRes := 0, tempSum := 0,
    startTime := none, endTime := none, valveCmd := 0, rampTarget := 0, released := false,
    holds := HoldSet.empty, endCause := none, flags := FillFlags.clear, nextMark := none,
    armT := none, startT := none, noFlowT := none, holdT := none, tagLossT := none,
    settleQuietT := none, settleLimitT := none, lastOutcome := none }

/-- R19, R20, R46, R116; the hook's raw position is log 4's. -/
def HoseUnit.reset : HoseUnit :=
  { meter := Meter.reset, fill := Fill.reset, ramp := none,
    hook := { raw := false, debounced := none, timer := some 100 },
    valve := { timer := none, present := false }, faults := { meter := false, valve := false },
    override := none }

/-- R47. -/
def Tag.reset : Tag :=
  { act := .off, coil := false, txFifo := [], lastMark := none, rxFifo := [], overrun := false,
    header := none, block := none, retry := 0, absentRun := 0, presentRun := 0,
    absenceSeen := false, lastReport := none, lastFault := none, reads := 0, retries := 0,
    faults := 0, overruns := 0, hoursNotAdopted := 0, sending := false, fieldT := none,
    retryT := none, windowT := none, gapT := none, sampleT := none, airOut := [] }

/-- R62. -/
def Visit.reset : Visit :=
  { state := .none, origin := none, tagId := none, machineId := none, cls := none,
    fuelCap := none, lubeCap := none, hours := none, barred := false, position := none,
    queryT := none, idleT := none, lastOutcome := none, note := none }

/-- R76. -/
def Accounts.reset : Accounts :=
  { records := [], lastSummary := Vector.replicate 16 0, conflicts := 0, lateReplies := 0,
    evictions := 0 }

/-- R97, R114. -/
def TankView.reset : TankView :=
  { stock := none, state := .gaugeFault, degraded := false, noValue := true, lastGauge := none,
    pump := .unknown, lastTotals := Vector.replicate 16 none, ownTotal := none, anomalies := 0,
    foreign := 0 }

/-- Section 10.1, the shipped values of one tank. -/
def TankCfg.shipped : TankCfg :=
  { product := 0, capacity := 1, reserve := 0, lowLow := 0, home := 0, strapCount := 2,
    strap := put (Vector.replicate 24 (0, 0)) 1 (20000, 0), lossThreshold := 0,
    lossProportion := 0 }

/-- R92, with the timers the load starts (R86, R99); a load that creates the unit gives it its
working values. -/
def HomeUnit.reset : HomeUnit :=
  { cfg := TankCfg.shipped, level := none, t10 := 150, tempStatus := .valid, gross := none,
    overStrap := false, gauged := none, invalidRun := 0, fault := false, stockState := .gaugeFault,
    book := none, throughput := 0, throughputMl := 0, recon := .suspended, lossRun := 0, variance := 0,
    receipt := none, offered := false, sampleT := some 1000, gaugeT := none,
    evalT := some 60000 }

/-- R105, R106. -/
def Pump.reset : Pump :=
  { own := false, remote := Vector.replicate 16 none, state := .resting, reason := none,
    startT := none, lossT := none, runOnT := none, restT := some 10000, starts := 0,
    lockouts := 0 }

/-- R116; the raw input is log 4's. -/
def InputUnit.reset : InputUnit :=
  { raw := false, debounced := false, timer := none, sinceReset := false }

/-- R116. -/
def Shutdown.reset : Shutdown :=
  { estop := InputUnit.reset, sump := InputUnit.reset,
    bund := Vector.replicate 8 InputUnit.reset, latch := false,
    creepList := Vector.replicate 4 false, origin := none, sources := Vector.replicate 16 none,
    spillsSent := 0, restoresSent := 0, bayShutdowns := 0 }

/-- R149. -/
def Peer.reset : Peer :=
  { heard := false, epoch := none, lastAt := none, silenceT := none, fields := none,
    silent := false, epochChanges := 0, rejoins := 0, silences := 0 }

/-- R152. -/
def LinkCounts.reset : LinkCounts :=
  { framesSent := 0, sendErrors := 0, arbLosses := 0, withdrawals := 0, displaced := 0,
    queriesDropped := 0, repliesDropped := 0, rxOverruns := 0, crcErrors := 0,
    formatErrors := 0, unknownKinds := 0, ownFrames := 0 }

/-- R152. -/
def Link.reset : Link :=
  { line := .wait, idleCount := 0, dropped := false, txQueue := [], pendPump := [], pendGauge := [],
    pendBeacon := none, newBeacon := false, rxQueue := [], retry := 0, withdrawn := false, withdrawT := none,
    rejoin := false, dupStation := false, epoch := 0, number := none, rate := 0,
    next := none,
    peers := Vector.replicate 16 Peer.reset, ownBeacon := none, beaconT := none, wire := [],
    counts := LinkCounts.reset }

/-- Section 10.1, the shipped values of one hose. -/
def HoseCfg.shipped : HoseCfg :=
  { tank := 1, product := 0, k1000 := 100000, t1 := 10, t2 := 40, t3 := 120, c0 := 0, c1 := 0,
    c2 := 0, c3 := 0, burst := 4095, creepLimit := 2000, full := 1000, slow := 250,
    minimum := 150, stepUp := 100, stepDown := 100, slowDown := 50000, closeAhead := 2000,
    noFlow := 30, lubeSlot := 1 }

/-- Section 10.1: the shipped configuration. -/
def ConfigData.shipped : ConfigData :=
  { station := { number := 0, rate := 1, homed := 0 },
    hoses := Vector.replicate 4 HoseCfg.shipped,
    tanks := Vector.replicate 8 TankCfg.shipped,
    products := Vector.replicate 16 { kind := 1, alpha := 830 },
    rules := { margin := 10, fixedMargin := 50000, topUp := 100000,
               fuelDefault := #v[4000, 600, 1000], lubeDefault := #v[200, 200, 200] } }

/-- R154: the store as Corimal ships it. -/
def Store.shipped : Store :=
  { config := ConfigData.shipped, locks := Vector.replicate 5 false, log := [],
    copyA := Vector.replicate 4 none, copyB := Vector.replicate 4 none,
    totals := Vector.replicate 8 { total := 0, applied := 0 }, epoch := 0, highWater := 0,
    highWaterBefore := none, errs := [] }

/-- R155, R159, R164; what recovery finds is log 7's until then. -/
def Nv.reset : Nv :=
  { queue := [], held := [], run := none, sc := 0, dc := 0, scCap := none, dcCap := none,
    reservations := 0, nextSeq := 0, totals := Vector.replicate 8 0, unannounced := [],
    recovery := .nothing }

/-- R168, R171, R186: the load of the reset is under way; the working copy is log 3's. -/
def Cfg.reset : Cfg :=
  { data := ConfigData.shipped, valid := Vector.replicate 5 false,
    parity := Vector.replicate 5 [], homeOf := Vector.replicate 8 none, fault := false,
    parityFault := false, reloadPending := false, parityFaults := 0, parityT := none,
    loading := some .reset }

/-- R185. -/
def Term.reset : Term :=
  { slot := none, ready := false, engine := none, latch := false, key := false, dataOut := [] }

/-- The part right after power-on, its store as shipped: start-up is loading the configuration
(R185, R186); CLOCK_UNSET (bit 10) is set, STARTED is set at the end of start-up (log 11). -/
def State.reset : State :=
  { pending := [], hoses := Vector.replicate 4 HoseUnit.reset, tag := Tag.reset,
    visit := Visit.reset, accounts := Accounts.reset, views := Vector.replicate 8 TankView.reset,
    home := Vector.replicate 8 none, pumps := Vector.replicate 8 none,
    pressure := Vector.replicate 8 false, shut := Shutdown.reset, link := Link.reset,
    store := Store.shipped, nv := Nv.reset, cfg := Cfg.reset, term := Term.reset,
    flags := 0x400, mask := 0, clock := 0, clockUnset := true, laneClosed := false,
    closePending := false, phase := .loading, firstBeaconT := none, lastReset := .cold }

end Sys2Proof.Machine
end

