-- ==== Sys2Proof/Machine/Flags.lean ====
section
/-! DEFINITION. The event flags, the mask and the attention line (section 11.2). -/

namespace Sys2Proof.Machine

/-- The bit of an event flag: bit 0 for the first flag listed (R187, R190). -/
def EventFlag.bit : EventFlag → Nat
  | .started => 0 | .fillClosed => 1 | .visit => 2 | .tag => 3 | .shutdown => 4 | .pump => 5
  | .stock => 6 | .link => 7 | .nv => 8 | .config => 9 | .clockUnset => 10 | .temp => 11

/-- The flag word with one flag set. -/
def EventFlag.mask (e : EventFlag) : BitVec 12 := 1#12 <<< e.bit

/-- R181: an event sets its flag. -/
def State.raise (s : State) (e : EventFlag) : State :=
  { s with flags := s.flags ||| e.mask }

/-- R181: an event that may set its flag. -/
def State.raiseIf (s : State) (c : Bool) (e : EventFlag) : State :=
  if c then s.raise e else s

/-- The flag is set. -/
def State.flagSet (s : State) (e : EventFlag) : Bool := s.flags.getLsbD e.bit

/-- R181: the attention line is asserted while a flag is set whose mask bit is clear. -/
def State.attention (s : State) : Bool := s.flags &&& ~~~s.mask != 0

/-- R181: CLEAR_EVENTS clears the flags named, CLOCK_UNSET excepted while the clock is unset. -/
def clearedFlags (flags named : BitVec 12) (clockUnset : Bool) : BitVec 12 :=
  flags &&& ~~~(if clockUnset then named &&& ~~~EventFlag.clockUnset.mask else named)

end Sys2Proof.Machine
end

