-- ==== Sys2Proof/Config.lean ====
section
/-! DEFINITION. What the FB-220 fixes (times, sizes and limits of the rules) and the free values:
constants without a body for what the spec leaves unstated. -/

namespace Sys2Proof.Config

/-- R1: the measurement interval, ms; also the ramp tick (R28), the hook debounce (R20) and the
tag sample period (R54, R57). -/
def tenthMs : Nat := 100
/-- R1: a channel count stops here. -/
def channelMax : Nat := 65535
/-- R1: the metered count is clamped here. -/
def meteredMax : Nat := 4095
/-- R10, R15: net of a fill, gross and net of a creep accumulation stop here, mL. -/
def volumeMax : Nat := 9999999
/-- Conventions 4.1: engine hours end here, decihours. -/
def hoursMax : Nat := 99999999
/-- R26, R44: distance of the checkpoint marks, mL. -/
def checkpointStep : Nat := 50000
/-- R12: the mismatch run at which METER_FAULT is present. -/
def mismatchLimit : Nat := 5
/-- R13: the excess-flow run at which EXCESS_FLOW is present. -/
def excessLimit : Nat := 3
/-- R14: the creep quiet time, ms. -/
def creepQuietMs : Nat := 60000
/-- R22: the arm time, ms. -/
def armMs : Nat := 120000
/-- R24: the start time, ms. -/
def startMs : Nat := 15000
/-- R34: the hold time, ms. -/
def holdMs : Nat := 180000
/-- R34: the tag-loss time, ms. -/
def tagLossMs : Nat := 20000
/-- R41: the settle quiet time, ms. -/
def settleQuietMs : Nat := 2000
/-- R37: the settle limit time, ms. -/
def settleLimitMs : Nat := 15000
/-- R118: the valve disagreement time, ms. -/
def valveMs : Nat := 2000
/-- R118: the largest difference of feedback and command that is agreement, per mille. -/
def valveTolerance : Nat := 100
/-- R49: the field-stable time, ms. -/
def fieldMs : Nat := 20
/-- R49: the retry time in WAITING NO_TAG, ms. -/
def tagRetryMs : Nat := 250
/-- R50: an answer must begin within this time, ms. -/
def answerMs : Nat := 50
/-- R50: an answer ends after this time without a byte, ms. -/
def gapMs : Nat := 5
/-- R50: bytes the receive FIFO of the tag interface holds. -/
def tagFifoBytes : Nat := 40
/-- R54: retries in one attempt. -/
def tagRetries : Nat := 3
/-- R68: the query window, ms. -/
def queryMs : Nat := 250
/-- R72: the visit idle time, ms. -/
def visitIdleMs : Nat := 120000
/-- R75: positions of the account table. -/
def accountPositions : Nat := 96
/-- R77: the largest difference of hours that gives a sample, decihours. -/
def hoursGapLimit : Nat := 2000
/-- R77: the largest rate estimate, mL/h. -/
def rateMax : Nat := 2000000
/-- R86: the probe sample period, ms. -/
def probeMs : Nat := 1000
/-- R86: the largest level a probe may read, mm. -/
def levelMax : Int := 20000
/-- R91: the GAUGE period, ms. -/
def gaugeMs : Nat := 10000
/-- R99: the reconciliation period, ms. -/
def evaluationMs : Nat := 60000
/-- R104: a remote member's demand lasts this long, ms. -/
def demandMs : Nat := 1200
/-- R108: the pump start time, ms. -/
def pumpStartMs : Nat := 5000
/-- R109: the pressure-loss time, ms. -/
def pressureLossMs : Nat := 1000
/-- R109: the run-on time, ms. -/
def runOnMs : Nat := 5000
/-- R106: the rest time, ms. -/
def restMs : Nat := 10000
/-- R117: the emergency stop debounce, ms. -/
def estopMs : Nat := 20
/-- R117: the debounce of the sump float and the bund sensors, ms. -/
def floatMs : Nat := 2000
/-- R140: the beacon period, ms. -/
def beaconMs : Nat := 500
/-- R186: the first beacon is formed within this time of the end of recovery, ms. -/
def firstBeaconMs : Nat := 100
/-- R139: the withdrawal time, ms. -/
def withdrawalMs : Nat := 2000
/-- R139: the retry count that withdraws the station. -/
def retryLimit : Nat := 16
/-- R149: the silence time, ms. -/
def silenceMs : Nat := 1500
/-- R134: recessive bit times that make the line idle. -/
def idleBits : Nat := 10
/-- Section 8.5: places of the transmit queue. -/
def txPlaces : Nat := 8
/-- R146: places of the receive queue. -/
def rxPlaces : Nat := 16
/-- R155: places of the program job queue. -/
def jobPlaces : Nat := 12
/-- R155: jobs at which the requests that queue one are answered BUSY. -/
def jobsBusy : Nat := 10
/-- Section 9.1: slots of the log. -/
def logSlots : Nat := 1024
/-- R160: UNCONSUMED records that raise LOG_NEARLY_FULL. -/
def nearlyFull : Nat := 960
/-- R164: the SC and DC counts stop here. -/
def eccMax : Nat := 15
/-- R171: the parity check period, ms. -/
def parityMs : Nat := 1000
/-- R190: the longest reply payload, in bytes. -/
def replyMax : Nat := 255
/-- Bytes of one word of a configuration section. DESIGN CHOICE, unsafe: the spec gives no width
(log 9). -/
def storeWordBytes : Nat := 4

/-- R4: the lowest Keff that the configured ranges give. -/
def keffMin : Nat := 950

/-! Values read from an invalid section: section 10.2 does not use it and gives none in its place. Each
is a free value within its range of section 10.1, one for each reading of the station clock (logs 46,
58, 70). -/

/-- The α used while the PRODUCTS section is invalid, of a product code. -/
opaque unusedAlpha : BitVec 32 → Byte → Fin 2001
/-- Whether a product code is taken for LUBE while the PRODUCTS section is invalid. -/
opaque unusedKindIsLube : BitVec 32 → Byte → Bool
/-- The lube slot of a hose while the HOSES section is invalid. -/
opaque unusedLubeSlot : BitVec 32 → Hose → LubeSlot
/-- The minimum opening of a hose while the HOSES section is invalid. -/
opaque unusedMinimum : BitVec 32 → Hose → Fin 1001
/-- The step-down of a hose, less 1, while the HOSES section is invalid. -/
opaque unusedStepDown : BitVec 32 → Hose → Fin 1000
/-- The Keff of a hose and band, less 950, while the HOSES section is invalid (950..10,499,999). -/
opaque unusedKeff : BitVec 32 → Hose → Fin 4 → Fin 10499050
/-- The default fuel capacity of a class while the ACCOUNT RULES section is invalid. -/
opaque unusedFuelDefault : BitVec 32 → Fin 3 → BitVec 16
/-- The default lube capacity of a slot while the ACCOUNT RULES section is invalid. -/
opaque unusedLubeDefault : BitVec 32 → LubeSlot → BitVec 16

/-- R180: the part code, which the spec does not give (log 13). -/
opaque partCode : Byte
/-- R180: the revision of the terminal interface, which the spec does not give (log 13). -/
opaque interfaceRevision : Byte
/-- Whether the `n`-th READ_RECORD during the write of the record of a sequence comes after the
complete marker is written, counted from 0 (R157, R162, log 16). -/
opaque markerWritten : BitVec 32 → Nat → Bool
/-- The identifier byte of a frame whose length is above 32, of the station clock, the format errors
count and the idle count: `RECEPTION_ENDED_LENGTH_ERROR` carries the length alone, and the recessive
bits at the identifier's end count for the idle count when the length is 0xFF (R134, log 82). -/
opaque unseenIdent : BitVec 32 → Nat → Nat → Byte
/-- The pump state that a byte outside R187's list is taken for, by its place (log 12). -/
opaque unlistedPumpState : Byte → Fin 6
/-- The lockout reason that a byte outside R187's list is taken for, if any (log 12). -/
opaque unlistedLockReason : Byte → Option (Fin 3)
/-- The stock state that a byte outside R187's list is taken for, by its place (log 12). -/
opaque unlistedStockState : Byte → Fin 4
/-- The reconciliation state that a byte outside R187's list is taken for (log 12). -/
opaque unlistedReconState : Byte → Fin 5
/-- The machine class that a value outside R187's list is taken for (log 12). -/
opaque unlistedClass : Byte → Fin 3
/-- Whether a product kind outside R187's list is taken for LUBE (log 12). -/
opaque unlistedKindIsLube : Byte → Bool
/-- The lube slot that a number outside 1..3 is taken for in a LUBE summary (log 12). -/
opaque unlistedLubeSlot : Byte → LubeSlot

end Sys2Proof.Config
end

