-- ==== Sys2Proof/Machine/Bytes.lean ====
section
/-! DEFINITION. Byte order, fields of fixed width and the cyclic redundancy checks of the lines
(conventions 4.4; R53, R136, R187). -/

namespace Sys2Proof.Machine

/-- `v` in `n` bytes, most significant first, kept modulo 2^(8n). -/
def beBytes : Nat → Nat → List Byte
  | 0, _ => []
  | n + 1, v => BitVec.ofNat 8 (v / 256 ^ n) :: beBytes n v

/-- The number a list of bytes spells, most significant first. -/
def beNat (l : List Byte) : Nat :=
  l.foldl (fun a b => a * 256 + b.toNat) 0

/-- `v` in `n` bytes, two's complement (R187). -/
def beInt (n : Nat) (v : Int) : List Byte :=
  beBytes n (v % (256 ^ n : Nat)).toNat

/-- An optional number in `n` bytes, all ones when absent (R187). -/
def beOpt (n : Nat) (v : Option Nat) : List Byte :=
  match v with
  | none => List.replicate n 0xFF
  | some v => beBytes n v

/-- A yes or no in one byte, 1 or 0 (log 14). -/
def beBool (b : Bool) : List Byte :=
  [if b then 1 else 0]

/-- Bit `i` of a set of flags is the `i`-th of `bs` (R187). -/
def bitsNat (bs : List Bool) : Nat :=
  bs.foldr (fun b a => 2 * a + (if b then 1 else 0)) 0

/-- Byte `i` of `l`, 0 beyond its end. -/
def u8At (l : List Byte) (i : Nat) : Byte :=
  l.getD i 0

/-- The 16-bit field at offset `i`. -/
def u16At (l : List Byte) (i : Nat) : U16 :=
  BitVec.ofNat 16 (beNat [u8At l i, u8At l (i + 1)])

/-- The 32-bit field at offset `i`. -/
def u32At (l : List Byte) (i : Nat) : U32 :=
  BitVec.ofNat 32 (beNat [u8At l i, u8At l (i + 1), u8At l (i + 2), u8At l (i + 3)])

/-- An optional 32-bit field: absent when it holds all ones (R187). -/
def optU32 (v : U32) : Option Nat :=
  if v = 0xFFFFFFFF then none else some v.toNat

/-- `l` with the bytes from offset `i` on replaced by `new`, as far as `l` reaches (R173). -/
def splice (l : List Byte) (i : Nat) (new : List Byte) : List Byte :=
  (l.take i ++ new ++ l.drop (i + new.length)).take l.length

/-- `k` shifts of a check register of width `w` with generator `poly`. -/
def crcShift {w : Nat} (poly : BitVec w) : Nat → BitVec w → BitVec w
  | 0, r => r
  | k + 1, r => crcShift poly k (if r.msb then (r <<< 1) ^^^ poly else r <<< 1)

/-- R136: the CRC-8 with generator 0x07, register from 0, no reversal, no final value. -/
def crc8 (l : List Byte) : Byte :=
  l.foldl (fun r b => crcShift 0x07#8 8 (r ^^^ b)) 0

/-- R53: the CRC-16 with generator 0x1021, register from 0xFFFF, no reversal, no final value. -/
def crc16 (l : List Byte) : U16 :=
  l.foldl (fun r b => crcShift 0x1021#16 8 (r ^^^ ((b.zeroExtend 16 : U16) <<< 8))) 0xFFFF

/-- A CRC-16 as sent, most significant byte first (R53). -/
def crc16Bytes (l : List Byte) : List Byte :=
  beBytes 2 (crc16 l).toNat

/-- How many ones the byte holds. -/
def onesOf (b : Byte) : Nat :=
  ((List.range 8).filter fun i => b.getLsbD i).length

/-- Section 3.3: a byte with its parity bit has an even number of ones. -/
def evenParity (b : Byte) (parity : Bool) : Bool :=
  (onesOf b + (if parity then 1 else 0)) % 2 == 0

/-- The run of ones at the low end of a byte: its last bits on the line. -/
def lowOnes (b : Byte) : Nat :=
  ((List.range 8).takeWhile fun i => b.getLsbD i).length

/-- R134: the idle count after the bytes of a frame, given last byte first: the recessive bits
that end it. -/
def recessiveTail : List Byte → Nat
  | [] => 0
  | b :: rest => if b = 0xFF then 8 + recessiveTail rest else lowOnes b

end Sys2Proof.Machine
end

