-- ==== Sys2Proof/Machine/Sections.lean ====
section
/-! DEFINITION. The configuration sections: their bytes (R187), their words, and when a section
is valid (section 10.1, R85, R167). -/

namespace Sys2Proof.Machine

/-- All sections, in the order of R190's numbers. -/
def allSections : List Section := [.station, .hoses, .tanks, .products, .rules]

/-- The place of a section, 0..4. -/
def Section.index : Section → Fin 5
  | .station => 0
  | .hoses => 1
  | .tanks => 2
  | .products => 3
  | .rules => 4

/-- R190: a section is numbered 1..5. -/
def sectionOf (b : Byte) : Option Section :=
  match b.toNat with
  | 1 => some .station
  | 2 => some .hoses
  | 3 => some .tanks
  | 4 => some .products
  | 5 => some .rules
  | _ => none

/-- A field of a given width as bytes, most significant first. -/
def bv8 (v : Byte) : List Byte := [v]
/-- A 16-bit field as bytes. -/
def bv16 (v : U16) : List Byte := beBytes 2 v.toNat
/-- A 32-bit field as bytes. -/
def bv32 (v : U32) : List Byte := beBytes 4 v.toNat

/-- The 54 bytes of one hose, in the order of section 10.1 (R187). -/
def HoseCfg.encode (c : HoseCfg) : List Byte :=
  bv8 c.tank ++ bv8 c.product ++ bv32 c.k1000 ++ bv16 c.t1 ++ bv16 c.t2 ++ bv16 c.t3 ++
  bv32 c.c0 ++ bv32 c.c1 ++ bv32 c.c2 ++ bv32 c.c3 ++ bv16 c.burst ++ bv32 c.creepLimit ++
  bv16 c.full ++ bv16 c.slow ++ bv16 c.minimum ++ bv16 c.stepUp ++ bv16 c.stepDown ++
  bv32 c.slowDown ++ bv32 c.closeAhead ++ bv8 c.noFlow ++ bv8 c.lubeSlot

/-- The hose whose 54 bytes start at offset `i`. -/
def HoseCfg.decode (l : List Byte) (i : Nat) : HoseCfg :=
  { tank := u8At l i, product := u8At l (i + 1), k1000 := u32At l (i + 2), t1 := u16At l (i + 6),
    t2 := u16At l (i + 8), t3 := u16At l (i + 10), c0 := u32At l (i + 12), c1 := u32At l (i + 16),
    c2 := u32At l (i + 20), c3 := u32At l (i + 24), burst := u16At l (i + 28),
    creepLimit := u32At l (i + 30), full := u16At l (i + 34), slow := u16At l (i + 36),
    minimum := u16At l (i + 38), stepUp := u16At l (i + 40), stepDown := u16At l (i + 42),
    slowDown := u32At l (i + 44), closeAhead := u32At l (i + 48), noFlow := u8At l (i + 52),
    lubeSlot := u8At l (i + 53) }

/-- The 165 bytes of one tank: product, capacity, reserve, low-low, home station, strapping
table, loss threshold, loss proportion (section 5.1, R187), the last of two bytes (log 79). -/
def TankCfg.encode (c : TankCfg) : List Byte :=
  bv8 c.product ++ bv32 c.capacity ++ bv32 c.reserve ++ bv32 c.lowLow ++ bv8 c.home ++
  bv8 c.strapCount ++ c.strap.toList.flatMap (fun p => bv16 p.1 ++ bv32 p.2) ++
  bv32 c.lossThreshold ++ bv16 c.lossProportion

/-- The tank whose 165 bytes start at offset `i`. -/
def TankCfg.decode (l : List Byte) (i : Nat) : TankCfg :=
  { product := u8At l i, capacity := u32At l (i + 1), reserve := u32At l (i + 5),
    lowLow := u32At l (i + 9), home := u8At l (i + 13), strapCount := u8At l (i + 14),
    strap := Vector.ofFn fun k => (u16At l (i + 15 + 6 * k.val), u32At l (i + 17 + 6 * k.val)),
    lossThreshold := u32At l (i + 159), lossProportion := u16At l (i + 163) }

/-- The 3 bytes of one product code. -/
def ProductCfg.encode (c : ProductCfg) : List Byte := bv8 c.kind ++ bv16 c.alpha

/-- The product whose 3 bytes start at offset `i`. -/
def ProductCfg.decode (l : List Byte) (i : Nat) : ProductCfg :=
  { kind := u8At l i, alpha := u16At l (i + 1) }

/-- The 3 bytes of the STATION section; the link rate is one byte and the homed tank list a set, one bit
per tank (log 79). -/
def StationCfg.encode (c : StationCfg) : List Byte := [c.number, c.rate, c.homed]

/-- The STATION section from its bytes. -/
def StationCfg.decode (l : List Byte) : StationCfg :=
  { number := u8At l 0, rate := u8At l 1, homed := u8At l 2 }

/-- The 21 bytes of the ACCOUNT RULES section. -/
def RulesCfg.encode (c : RulesCfg) : List Byte :=
  bv8 c.margin ++ bv32 c.fixedMargin ++ bv32 c.topUp ++ c.fuelDefault.toList.flatMap bv16 ++
  c.lubeDefault.toList.flatMap bv16

/-- The ACCOUNT RULES section from its bytes. -/
def RulesCfg.decode (l : List Byte) : RulesCfg :=
  { margin := u8At l 0, fixedMargin := u32At l 1, topUp := u32At l 5,
    fuelDefault := #v[u16At l 9, u16At l 11, u16At l 13],
    lubeDefault := #v[u16At l 15, u16At l 17, u16At l 19] }

/-- R187: a section as its bytes. -/
def encodeSection (d : ConfigData) : Section → List Byte
  | .station => d.station.encode
  | .hoses => d.hoses.toList.flatMap HoseCfg.encode
  | .tanks => d.tanks.toList.flatMap TankCfg.encode
  | .products => d.products.toList.flatMap ProductCfg.encode
  | .rules => d.rules.encode

/-- `d` with one section taken from its bytes. -/
def decodeSection (d : ConfigData) (sec : Section) (l : List Byte) : ConfigData :=
  match sec with
  | .station => { d with station := StationCfg.decode l }
  | .hoses => { d with hoses := Vector.ofFn fun h => HoseCfg.decode l (54 * h.val) }
  | .tanks => { d with tanks := Vector.ofFn fun t => TankCfg.decode l (165 * t.val) }
  | .products => { d with products := Vector.ofFn fun p => ProductCfg.decode l (3 * p.val) }
  | .rules => { d with rules := RulesCfg.decode l }

/-- R187: a section's size is the sum of its items' widths. -/
def sectionSize : Section → Nat
  | .station => 3
  | .hoses => 216
  | .tanks => 1320
  | .products => 48
  | .rules => 21

/-- R173: `d` with bytes written from an offset of a section on. -/
def writeSection (d : ConfigData) (sec : Section) (offset : Nat) (bytes : List Byte) : ConfigData :=
  decodeSection d sec (splice (encodeSection d sec) offset bytes)

/-! ## Words and parity (log 9) -/

/-- The words of a run of bytes; `fuel` at least their number. -/
def wordsOf : Nat → List Byte → List (List Byte)
  | 0, _ => []
  | fuel + 1, l =>
    match l with
    | [] => []
    | b :: rest =>
      (b :: rest).take Config.storeWordBytes ::
        wordsOf fuel ((b :: rest).drop Config.storeWordBytes)

/-- The parity bit that makes a word's ones even (R168). -/
def wordParity (w : List Byte) : Bool :=
  (w.foldl (fun a b => a + onesOf b) 0) % 2 == 1

/-- The parity bits of a section's words. -/
def sectionParity (d : ConfigData) (sec : Section) : List Bool :=
  (wordsOf (sectionSize sec) (encodeSection d sec)).map wordParity

/-- The five words of a calibration override with their parity bits (R175). -/
def overrideParity (k c0 c1 c2 c3 : U32) : List Bool :=
  [k, c0, c1, c2, c3].map fun v => wordParity (bv32 v)

/-- The words that bytes `offset` to `offset + n - 1` of a section fall in: none for no byte. -/
def wordsTouched (offset n : Nat) : List Nat :=
  (List.range (offset / Config.storeWordBytes + n + 1)).filter fun w =>
    decide (0 < n) && decide (w * Config.storeWordBytes < offset + n) &&
      decide (offset < (w + 1) * Config.storeWordBytes)

/-- Word `w` of a section is written whole by `n` bytes from `offset` on. -/
def wordWhole (sec : Section) (offset n w : Nat) : Bool :=
  decide (offset ≤ w * Config.storeWordBytes) &&
    decide (Nat.min ((w + 1) * Config.storeWordBytes) (sectionSize sec) ≤ offset + n)

/-! ## Ranges and consistency -/

/-- A number lies in a range. -/
def inRange (lo hi v : Nat) : Bool := decide (lo ≤ v) && decide (v ≤ hi)

/-- A band correction lies in −50,000..+50,000 ppm. -/
def correctionOk (v : U32) : Bool := decide (-50000 ≤ v.toInt) && decide (v.toInt ≤ 50000)

/-- Section 10.1, STATION. Link rate 1 is 125 and 2 is 250 kbit/s (log 79). -/
def StationCfg.ok (c : StationCfg) : Bool :=
  inRange 1 16 c.number.toNat && inRange 1 2 c.rate.toNat

/-- Section 10.1, one hose. -/
def HoseCfg.ok (c : HoseCfg) : Bool :=
  inRange 1 8 c.tank.toNat && inRange 0 15 c.product.toNat && inRange 1000 9999999 c.k1000.toNat &&
  inRange 1 4095 c.t1.toNat && inRange 1 4095 c.t2.toNat && inRange 1 4095 c.t3.toNat &&
  decide (c.t1.toNat < c.t2.toNat) && decide (c.t2.toNat < c.t3.toNat) &&
  correctionOk c.c0 && correctionOk c.c1 && correctionOk c.c2 && correctionOk c.c3 &&
  inRange 1 4095 c.burst.toNat && inRange 0 20000 c.creepLimit.toNat &&
  inRange 0 1000 c.full.toNat && inRange 0 1000 c.slow.toNat && inRange 0 1000 c.minimum.toNat &&
  inRange 1 1000 c.stepUp.toNat && inRange 1 1000 c.stepDown.toNat &&
  inRange 0 9999999 c.slowDown.toNat && inRange 0 9999999 c.closeAhead.toNat &&
  inRange 5 120 c.noFlow.toNat && inRange 1 3 c.lubeSlot.toNat

/-- Section 5.1, one tank. -/
def TankCfg.ok (c : TankCfg) : Bool :=
  inRange 0 15 c.product.toNat && inRange 1 2000000 c.capacity.toNat &&
  inRange 0 2000000 c.reserve.toNat && inRange 0 2000000 c.lowLow.toNat &&
  inRange 0 16 c.home.toNat && inRange 2 24 c.strapCount.toNat &&
  inRange 0 100000 c.lossThreshold.toNat && inRange 0 1000 c.lossProportion.toNat

/-- Section 10.1, one product code. -/
def ProductCfg.ok (c : ProductCfg) : Bool :=
  inRange 1 2 c.kind.toNat && inRange 0 2000 c.alpha.toNat

/-- Section 10.1, ACCOUNT RULES. -/
def RulesCfg.ok (c : RulesCfg) : Bool :=
  inRange 0 100 c.margin.toNat && inRange 0 1000000 c.fixedMargin.toNat &&
  inRange 0 9999999 c.topUp.toNat

/-- Tank `t` is in the homed tank list of the STATION section. -/
def ConfigData.homedBit (d : ConfigData) (t : Tank) : Bool := d.station.homed.getLsbD t.val

/-- A tank number byte 1..8. -/
def tankOf (b : Byte) : Option Tank :=
  if h : 1 ≤ b.toNat ∧ b.toNat ≤ 8 then some ⟨b.toNat - 1, by omega⟩ else none

/-- A station number byte 1..16. -/
def stationOf (b : Byte) : Option Station :=
  if h : 1 ≤ b.toNat ∧ b.toNat ≤ 16 then some ⟨b.toNat - 1, by omega⟩ else none

/-- A hose number byte 0..3. -/
def hoseOf (b : Byte) : Option Hose :=
  if h : b.toNat < 4 then some ⟨b.toNat, h⟩ else none

/-- A lube slot byte 1..3. -/
def lubeSlotOf (b : Byte) : Option LubeSlot :=
  if h : 1 ≤ b.toNat ∧ b.toNat ≤ 3 then some ⟨b.toNat - 1, by omega⟩ else none

/-- A product code byte 0..15. -/
def productOf (b : Byte) : Option (Fin 16) :=
  if h : b.toNat < 16 then some ⟨b.toNat, h⟩ else none

/-- R85: the homed tank list and the home station fields agree. -/
def ConfigData.tanksAgree (d : ConfigData) : Bool :=
  (indices 8).all fun t => d.homedBit t == (d.tanks[t].home == d.station.number)

/-- R167: each hose's product is the product of its tank's TANKS entry. -/
def ConfigData.hosesAgree (d : ConfigData) : Bool :=
  (indices 4).all fun h =>
    match tankOf d.hoses[h].tank with
    | none => false
    | some t => d.hoses[h].product == d.tanks[t].product

/-- Every item of a section lies in its range. -/
def ConfigData.rangesOk (d : ConfigData) : Section → Bool
  | .station => d.station.ok
  | .hoses => (indices 4).all fun h => d.hoses[h].ok
  | .tanks => (indices 8).all fun t => d.tanks[t].ok
  | .products => (indices 16).all fun p => d.products[p].ok
  | .rules => d.rules.ok

/-- Some word of a section of the store reads with a double error (R164). -/
def Store.sectionDouble (st : Store) (sec : Section) : Bool :=
  st.errs.any fun e => e.area == .config sec && e.double

/-- R167: the judgement of the five sections at a load. -/
def judgeSections (st : Store) : Vector Bool 5 :=
  let plain := fun sec => !st.sectionDouble sec && st.config.rangesOk sec
  let station := plain .station
  let tanks := plain .tanks && (!station || st.config.tanksAgree)
  let hoses := plain .hoses && (!tanks || st.config.hosesAgree)
  #v[station, hoses, tanks, plain .products, plain .rules]

/-- R85: the reserve in use, at most the capacity. -/
def TankCfg.reserveUsed (c : TankCfg) : Nat := Nat.min c.reserve.toNat c.capacity.toNat

/-- R85: the low-low in use, at most the reserve in use. -/
def TankCfg.lowLowUsed (c : TankCfg) : Nat := Nat.min c.lowLow.toNat c.reserveUsed

/-- The points of a strapping table that are in use. -/
def TankCfg.points (c : TankCfg) : List (Nat × Nat) :=
  (c.strap.toList.take c.strapCount.toNat).map fun p => (p.1.toNat, p.2.toNat)

/-- R85: levels strictly ascend and gross volumes do not fall. -/
def strapUsable : List (Nat × Nat) → Bool
  | [] => true
  | [_] => true
  | p :: q :: rest => decide (p.1 < q.1) && decide (p.2 ≤ q.2) && strapUsable (q :: rest)

/-- R87: the gross volume at a level, and whether the level is above the last point. -/
def strapVolume : List (Nat × Nat) → Nat → Nat × Bool
  | [], _ => (0, false)
  | [p], level => (p.2, decide (p.1 < level))
  | p :: q :: rest, level =>
    if level ≤ p.1 then (p.2, false)
    else if level < q.1 then (p.2 + (q.2 - p.2) * (level - p.1) / (q.1 - p.1), false)
    else strapVolume (q :: rest) level

end Sys2Proof.Machine
end

