-- ==== Sys2Proof/Machine/Formats.lean ====
section
/-! DEFINITION. The numbers of named values (R187) and the byte layouts of chapter 12: bay link
payloads, tag blocks, records, terminal replies. -/

namespace Sys2Proof.Machine

/-! ## Numbers of named values: the place in the list where the spec first lists the set, from 1;
0 is absent or none (R187) -/

/-- Section 2.1. -/
def FillState.code : FillState → Nat
  | .idle => 1 | .armed => 2 | .starting => 3 | .flowing => 4 | .slowing => 5 | .held => 6
  | .settling => 7 | .closing => 8

/-- Section 2.1. -/
def FillKind.code : FillKind → Nat
  | .fill => 1 | .prover => 2

/-- R187: HAUL 1, SUPPORT 2, PRIORITY 3. -/
def MachineClass.code : MachineClass → Nat
  | .haul => 1 | .support => 2 | .priority => 3

/-- R37's order, INTERRUPTED 12 (R187). -/
def EndCause.code : EndCause → Nat
  | .preset => 1 | .operatorStop => 2 | .nozzleHung => 3 | .noFlow => 4 | .holdTimeout => 5
  | .tagChanged => 6 | .shutdown => 7 | .hoseFault => 8 | .limit => 9 | .configFault => 10
  | .laneClosing => 11 | .interrupted => 12

/-- Section 2.1's order of last outcomes: PRESET 1 and so on. -/
def FillOutcome.code : FillOutcome → Nat
  | .ended .preset => 1 | .ended .operatorStop => 2 | .ended .nozzleHung => 3
  | .ended .noFlow => 4 | .ended .holdTimeout => 5 | .ended .tagChanged => 6
  | .ended .shutdown => 7 | .ended .hoseFault => 8 | .ended .limit => 9
  | .ended .configFault => 10 | .ended .laneClosing => 11 | .armTimeout => 12
  | .pumpNotReady => 13 | .tagNotReady => 14 | .visitEnded => 15 | .ended .interrupted => 0

/-- Section 1.1. -/
def TempStatus.code : TempStatus → Nat
  | .valid => 1 | .default => 2

/-- Section 3.1: OFF, POWERING, WAITING, RESETTING, EXCHANGING, READY, LOST. -/
def TagAct.code : TagAct → Nat
  | .off => 1 | .powering => 2 | .waitingNoTag => 3 | .waitingFaulted => 3 | .resetting => 4
  | .exchanging => 5 | .ready => 6 | .lost => 7

/-- Section 3.1: NO_TAG, FAULTED; 0 outside WAITING. -/
def TagAct.waitCode : TagAct → Nat
  | .waitingNoTag => 1 | .waitingFaulted => 2 | _ => 0

/-- Section 3.1. -/
def TagReport.code : TagReport → Nat
  | .identified => 1 | .confirmed => 2 | .changed => 3 | .lost => 4 | .fault => 5

/-- Section 3.1. -/
def TagReason.code : TagReason → Nat
  | .timeout => 1 | .parity => 2 | .length => 3 | .overrun => 4 | .headerCrc => 5
  | .blockCrc => 6 | .serial => 7 | .content => 8

/-- Section 4.1: NONE stands in the list, so it is 1 (log 14). -/
def VisitState.code : VisitState → Nat
  | .none => 1 | .identifying => 2 | .querying => 3 | .opened => 4 | .ending => 5

/-- Section 4.1. -/
def VisitOrigin.code : VisitOrigin → Nat
  | .tag => 1 | .manual => 2

/-- Section 4.1: NONE stands in the list as 1 (log 14). -/
def visitOutcomeCode : Option VisitOutcome → Nat
  | none => 1 | some .closed => 2 | some .idleTimeout => 3 | some .laneClosing => 4
  | some .tagInUse => 5 | some .duplicateTag => 6 | some .configFault => 7
  | some .duplicateStation => 8

/-- Section 4.8. -/
def AccountSource.code : AccountSource → Nat
  | .own => 1 | .summary => 2 | .reply => 3 | .tagOnly => 4

/-- Section 5.2. -/
def StockState.code : StockState → Nat
  | .normal => 1 | .reserve => 2 | .lowLow => 3 | .gaugeFault => 4

/-- Section 5.2. -/
def ReconState.code : ReconState → Nat
  | .balanced => 1 | .watch => 2 | .lossAlarm => 3 | .receiving => 4 | .suspended => 5

/-- Section 6.1. -/
def PumpState.code : PumpState → Nat
  | .stopped => 1 | .starting => 2 | .running => 3 | .runOn => 4 | .resting => 5 | .lockedOut => 6

/-- Section 6.1. -/
def LockReason.code : LockReason → Nat
  | .noPressure => 1 | .pressureLost => 2 | .dryRun => 3

/-- R134. -/
def LineState.code : LineState → Nat
  | .idle => 1 | .wait => 2 | .receiving => 3 | .sending => 4

/-- Section 9.4. -/
def RecordKind.code : RecordKind → Nat
  | .fill => 1 | .prover => 2 | .creep => 3 | .receipt => 4

/-- R190: DONE 0x01, BUSY 0x02, REFUSED 0x03, BAD_FRAME 0x04, UNKNOWN_REQUEST 0x05. -/
def Status.code : Status → Byte
  | .done => 1 | .busy => 2 | .refused => 3 | .badFrame => 4 | .unknownRequest => 5

/-- R179's order. -/
def Reason.code : Reason → Byte
  | .state => 1 | .shutdown => 2 | .logFull => 3 | .reserve => 4 | .homeSilent => 5
  | .tagInUse => 6 | .locked => 7 | .notHome => 8 | .causeActive => 9 | .configFault => 10
  | .hoseFault => 11 | .range => 12

/-- R185. -/
def ResetKind.code : ResetKind → Nat
  | .cold => 1 | .warm => 2

/-- Section 7.1's order of causes, with the detail byte (0xFF none, R188). -/
def BayCause.bytes : BayCause → Byte × Byte
  | .estop => (1, 0xFF)
  | .sump => (2, 0xFF)
  | .bund t => (3, BitVec.ofNat 8 (t.val + 1))
  | .stockLoss => (4, 0xFF)
  | .excessFlow h => (5, BitVec.ofNat 8 h.val)

/-- The store areas of section 9.1 in order; a lock word belongs to the configuration. -/
def Area.code : Area → Nat
  | .config _ => 1 | .lock _ => 1 | .slot _ => 2 | .checkpoint _ _ => 3 | .total _ => 4
  | .epoch => 5 | .highWater => 6

/-- The index of a word within its area (log 9); a section's lock word follows it (R187). -/
def Area.wordIndex (a : Area) (w : Nat) : Nat :=
  match a with
  | .config .station => w
  | .lock .station => 1
  | .config .hoses => 2 + w
  | .lock .hoses => 56
  | .config .tanks => 57 + w
  | .lock .tanks => 387
  | .config .products => 388 + w
  | .lock .products => 400
  | .config .rules => 401 + w
  | .lock .rules => 407
  | .slot n => 32 * n + w
  | .checkpoint h b => 32 * (2 * h.val + (if b then 1 else 0)) + w
  | .total t => t.val
  | .epoch => 0
  | .highWater => 0

/-- A pump view as a byte: UNKNOWN is 0. -/
def PumpView.code : PumpView → Nat
  | .unknown => 0
  | .known st _ => st.code

/-- The lockout reason of a pump view as a byte. -/
def PumpView.reasonCode : PumpView → Nat
  | .known _ (some r) => r.code
  | _ => 0

/-- An optional named value as a byte. -/
def optCode {α : Type} (f : α → Nat) : Option α → Nat
  | none => 0
  | some x => f x

/-- One byte from a number. -/
def b1 (n : Nat) : List Byte := beBytes 1 n
/-- Two bytes from a number. -/
def b2 (n : Nat) : List Byte := beBytes 2 n
/-- Four bytes from a number. -/
def b4 (n : Nat) : List Byte := beBytes 4 n
/-- An optional 32-bit item. -/
def optBv32 (v : Option U32) : List Byte := beOpt 4 (v.map BitVec.toNat)

/-- The tank number 1..8 of a tank. -/
def tankNo (t : Tank) : Nat := t.val + 1
/-- The station number 1..16 of a station. -/
def stationNo (s : Station) : Nat := s.val + 1

/-! ## Values read back from their numbers -/

/-- The pump states in order. -/
def pumpStates : Vector PumpState 6 :=
  #v[.stopped, .starting, .running, .runOn, .resting, .lockedOut]

/-- A pump state byte; an unlisted one is a free choice (log 12). -/
def pumpStateOf (b : Byte) : PumpState :=
  match b.toNat with
  | 1 => .stopped | 2 => .starting | 3 => .running | 4 => .runOn | 5 => .resting | 6 => .lockedOut
  | _ => pumpStates[Config.unlistedPumpState b]

/-- The lockout reasons in order. -/
def lockReasons : Vector LockReason 3 := #v[.noPressure, .pressureLost, .dryRun]

/-- A lockout reason byte, 0 for none; an unlisted one is a free choice (log 12). -/
def lockReasonOf (b : Byte) : Option LockReason :=
  match b.toNat with
  | 0 => none
  | 1 => some .noPressure | 2 => some .pressureLost | 3 => some .dryRun
  | _ => (Config.unlistedLockReason b).map fun i => lockReasons[i]

/-- The stock states in order. -/
def stockStates : Vector StockState 4 := #v[.normal, .reserve, .lowLow, .gaugeFault]

/-- A stock state byte; an unlisted one is a free choice (log 12). -/
def stockStateOf (b : Byte) : StockState :=
  match b.toNat with
  | 1 => .normal | 2 => .reserve | 3 => .lowLow | 4 => .gaugeFault
  | _ => stockStates[Config.unlistedStockState b]

/-- The reconciliation states in order. -/
def reconStates : Vector ReconState 5 := #v[.balanced, .watch, .lossAlarm, .receiving, .suspended]

/-- A reconciliation state byte; an unlisted one is a free choice (log 12). -/
def reconStateOf (b : Byte) : ReconState :=
  match b.toNat with
  | 1 => .balanced | 2 => .watch | 3 => .lossAlarm | 4 => .receiving | 5 => .suspended
  | _ => reconStates[Config.unlistedReconState b]

/-- The classes in order. -/
def machineClasses : Vector MachineClass 3 := #v[.haul, .support, .priority]

/-- A class number, absent when unlisted (R55). -/
def classOf? (n : Nat) : Option MachineClass :=
  match n with
  | 1 => some .haul | 2 => some .support | 3 => some .priority
  | _ => none

/-- A class number of a received reply; an unlisted one is a free choice (log 12). -/
def classOf (n : Nat) : MachineClass :=
  (classOf? n).getD machineClasses[Config.unlistedClass (BitVec.ofNat 8 n)]

/-! ## Bay link frames (R188, R189) -/

/-- The kind number of a frame (section 8.4). -/
def TxFrame.kind : TxFrame → Nat
  | .spill _ => 0 | .restore => 1 | .pump .. => 2 | .gauge .. => 3 | .summary .. => 4
  | .query _ => 5 | .reply1 _ => 6 | .reply2 _ => 6 | .beacon _ => 7

/-- R188, BEACON: the fields with the rejoined flag as it is at sending (R139). -/
def BeaconFields.payload (b : BeaconFields) (rejoined : Bool) : List Byte :=
  b1 (b.lane * 16 + b.visit) ++ b1 (bitsNat [b.spill, b.laneShut, b.configFault, rejoined]) ++
  bv16 b.epoch ++ bv32 b.machineId ++ [b.demand] ++ b1 b.draws.length ++
  (((b.draws.take 4).flatMap fun (d : Byte × U32) => d.1 :: bv32 d.2) ++ List.replicate 20 0).take 20

/-- R188, GAUGE, with the pump state as it is at sending (R91). -/
def GaugeFields.payload (t : Tank) (g : GaugeFields) (pumpNow : Nat) : List Byte :=
  b1 (tankNo t) ++ b4 (g.gauged.getD 0) ++ b2 (if g.gauged.isSome then g.level else 0) ++
  b1 g.state.code ++ b1 g.recon.code ++
  b1 (bitsNat [g.recon == .receiving, g.degraded, g.overStrap, g.tempDefault, g.gauged.isNone]) ++
  b1 pumpNow

/-- R188, FILL_SUMMARY. -/
def SummaryFields.payload (f : SummaryFields) : List Byte :=
  bv32 f.seq ++ bv32 f.machineId ++
  b1 (match f.lubeSlot with
      | none => 16
      | some s => 32 + s.val + 1) ++
  bv32 f.net ++ b4 f.hours ++ b2 f.dhUsed ++ beOpt 4 f.rate ++ b2 f.fillCount

/-- R189, part 1. -/
def Account.part1 (a : Account) : List Byte :=
  b1 1 ++ bv32 a.machineId ++ b1 (a.cls.code + (if a.stale then 128 else 0)) ++ b2 a.fuelCap ++
  a.lubeCap.toList.flatMap b2 ++ beOpt 4 a.lastHours ++ beOpt 4 a.rate ++ b2 a.fillCount ++
  bv32 a.totalFuel ++ bv32 a.hoursAccounted

/-- R189, part 2. -/
def Account.part2 (a : Account) : List Byte :=
  b1 2 ++ bv32 a.machineId ++ b2 a.fillCount ++ a.lubeTotals.toList.flatMap bv32 ++
  a.lubeRes.toList.flatMap b2

/-- R188: the payload of a frame, with the pump state and the rejoined flag at its sending. -/
def TxFrame.payload (f : TxFrame) (pumpNow : Nat) (rejoined : Bool) : List Byte :=
  match f with
  | .spill cs => b1 cs.length ++ cs.flatMap fun c => [c.bytes.1, c.bytes.2]
  | .restore => []
  | .pump t st r => b1 (tankNo t) ++ b1 st.code ++ b1 (optCode LockReason.code r)
  | .gauge t g => g.payload t pumpNow
  | .summary _ f => f.payload
  | .query m => bv32 m
  | .reply1 a => a.part1
  | .reply2 a => a.part2
  | .beacon b => b.payload rejoined

/-- Section 8.1: identifier, length, payload and CRC-8 of a frame of a station. -/
def frameBytes (number : Station) (kind : Nat) (payload : List Byte) : List Byte :=
  let body := BitVec.ofNat 8 (kind * 16 + number.val) :: BitVec.ofNat 8 payload.length :: payload
  body ++ [crc8 body]

/-- The kind of a received frame, 0..15: the upper four bits of its identifier. -/
def RxFrame.kind (f : RxFrame) : Nat := f.ident.toNat / 16

/-- The station of a received frame: the lower four bits of its identifier. -/
def RxFrame.station (f : RxFrame) : Station := ⟨f.ident.toNat % 16, Nat.mod_lt _ (by decide)⟩

/-- R135, R188: the payload length of a kind is as given. -/
def lengthOk (kind : Nat) (payload : List Byte) : Bool :=
  match kind with
  | 0 => inRange 1 15 (u8At payload 0).toNat &&
      payload.length == 1 + 2 * (u8At payload 0).toNat
  | 1 => payload.length == 0
  | 2 => payload.length == 3
  | 3 => payload.length == 11
  | 4 => payload.length == 25
  | 5 => payload.length == 4
  | 6 => payload.length == 32 || payload.length == 25
  | 7 => payload.length == 30
  | _ => false

/-- R188: the cause list of a SPILL. -/
def spillCauses (p : List Byte) : List (Byte × Byte) :=
  (List.range (u8At p 0).toNat).map fun i => (u8At p (1 + 2 * i), u8At p (2 + 2 * i))

/-- R188: the fields of a received beacon. -/
def beaconOf (p : List Byte) : BeaconFields :=
  { lane := (u8At p 0).toNat / 16, visit := (u8At p 0).toNat % 16,
    spill := (u8At p 1).getLsbD 0, laneShut := (u8At p 1).getLsbD 1,
    configFault := (u8At p 1).getLsbD 2, rejoined := (u8At p 1).getLsbD 3,
    epoch := u16At p 2, machineId := u32At p 4, demand := u8At p 8,
    draws := (List.range (Nat.min (u8At p 9).toNat 4)).map fun i =>
      (u8At p (10 + 5 * i), u32At p (11 + 5 * i)) }

/-- R188: the fields of a received summary. Hours of 0 are absent, and an unlisted product kind or
slot is a free choice (log 12). -/
def summaryOf (p : List Byte) : SummaryFields :=
  let k := u8At p 8
  let lube := if k.toNat / 16 = 1 then false else if k.toNat / 16 = 2 then true
    else Config.unlistedKindIsLube k
  let slot := (lubeSlotOf (BitVec.ofNat 8 (k.toNat % 16))).getD (Config.unlistedLubeSlot k)
  { seq := u32At p 0, machineId := u32At p 4, lubeSlot := if lube then some slot else none,
    net := u32At p 9, hours := (u32At p 13).toNat, dhUsed := (u16At p 17).toNat,
    rate := optU32 (u32At p 19), fillCount := (u16At p 23).toNat }

/-! ## Tag air interface (R51, R191) -/

/-- R51: the fields of the 8 bytes of an identity header. -/
def headerOf (l : List Byte) : TagHeader :=
  { serial := u32At l 0, format := u8At l 4, blockNumber := u8At l 5 }

/-- R55: hours valid is neither 0 nor 1, the class is unlisted, the format is not 1 or the
machine id is 0. -/
def blockContentBad (l : List Byte) : Bool :=
  (u8At l 22 != 1) || (classOf? (u8At l 4).toNat).isNone || (u32At l 0 == 0) ||
  (u8At l 17 != 0 && u8At l 17 != 1)

/-- R55: the accepted block; `fuelDefault` is the configured default capacity of a class. -/
def blockOf (fuelDefault : MachineClass → Nat) (l : List Byte) : TagBlock :=
  let cls := classOf (u8At l 4).toNat
  let fuel := (u16At l 5).toNat
  let hours := (u32At l 13).toNat
  { machineId := u32At l 0, cls := cls, fuelCap := if fuel = 0 then fuelDefault cls else fuel,
    lubeCap := #v[(u16At l 7).toNat, (u16At l 9).toNat, (u16At l 11).toNat],
    hours := if u8At l 17 = 1 ∧ hours ≤ Config.hoursMax then some hours else none,
    hoursValid := u8At l 17, serial := u32At l 18, format := u8At l 22 }

/-! ## Records (R192) -/

/-- The flags of a fill in the order of R192. -/
def FillFlags.bits (f : FillFlags) : List Bool :=
  [f.overrange, f.tempDefault, f.limit, f.settleTimeout, f.override, f.manual, f.hoursNotAdvanced,
   f.hoursGap]

/-- The flags of a record, bits 0..11 (R192). -/
def RecordFlags.bits (f : RecordFlags) : List Bool :=
  f.fill.bits ++ [f.negative, f.startDegraded, f.endDegraded, f.overStrap]

/-- R192: the bytes of a record with its slot, slot state number, announced state and DAMAGED. -/
def Record.bytes (r : Record) (slot state : Nat) (announced damaged : Bool) : List Byte :=
  bv32 r.seq ++ b1 r.kind.code ++
  b1 (state + (if announced then 16 else 0) + (if damaged then 32 else 0)) ++ b2 slot ++
  beOpt 1 (r.hose.map Fin.val) ++ b1 (tankNo r.tank) ++ [r.product] ++
  b1 (optCode (fun s : LubeSlot => s.val + 1) r.lubeSlot) ++
  b4 (optCode BitVec.toNat r.machineId) ++ b1 (optCode MachineClass.code r.cls) ++
  beOpt 4 r.hours ++ beOpt 4 r.preset ++ b4 r.net ++ beOpt 4 r.gross ++
  (match r.tempAvg with
   | none => [0x80, 0x00]
   | some a => beInt 2 a) ++
  bv32 r.startTime ++ bv32 r.endTime ++ b1 (optCode EndCause.code r.endCause) ++
  beOpt 2 (r.credit.map Credit.dhUsed) ++ beOpt 4 (r.credit.bind Credit.rate) ++
  beOpt 2 (r.credit.map Credit.fillCount) ++ b2 (bitsNat r.flags.bits) ++
  (match r.receipt with
   | none => []
   | some x => b4 x.startGauged ++ b4 x.endGauged ++ b2 x.startLevel ++ b2 x.endLevel ++
       b4 x.draws ++ beInt 4 x.received)

/-- R178, R190: a reply on the line: status, length, payload (the code first) and CRC-8. -/
def Reply.bytes (r : Reply) : List Byte :=
  let payload := (r.code :: r.items).take Config.replyMax
  let body := r.status.code :: BitVec.ofNat 8 payload.length :: payload
  body ++ [crc8 body]

end Sys2Proof.Machine
end

