-- ==== Sys2Proof/Machine/Ops.lean ====
section
/-! DEFINITION. The named updates of the state's parts, the questions the rules ask of the whole
state, and the draw totals. -/

namespace Sys2Proof.Machine

/-- A 16-bit count that stays at 65,535. -/
def sat16 (n : Nat) : Nat := Nat.min (n + 1) 65535

/-! ## Updates of one part -/

/-- Update one hose. -/
def State.modHose (s : State) (h : Hose) (f : HoseUnit → HoseUnit) : State :=
  { s with hoses := put s.hoses h (f s.hoses[h]) }

/-- The fill context of a hose. -/
def State.fill (s : State) (h : Hose) : Fill := s.hoses[h].fill

/-- The meter unit of a hose. -/
def State.meter (s : State) (h : Hose) : Meter := s.hoses[h].meter

/-- Update one fill context. -/
def State.modFill (s : State) (h : Hose) (f : Fill → Fill) : State :=
  s.modHose h fun u => { u with fill := f u.fill }

/-- Update one meter unit. -/
def State.modMeter (s : State) (h : Hose) (f : Meter → Meter) : State :=
  s.modHose h fun u => { u with meter := f u.meter }

/-- Update one tank view. -/
def State.modView (s : State) (t : Tank) (f : TankView → TankView) : State :=
  { s with views := put s.views t (f s.views[t]) }

/-- Update the home tank unit of a tank, where there is one. -/
def State.modHome (s : State) (t : Tank) (f : HomeUnit → HomeUnit) : State :=
  { s with home := put s.home t (s.home[t].map f) }

/-- Update the pump controller of a tank, where one runs. -/
def State.modPump (s : State) (t : Tank) (f : Pump → Pump) : State :=
  { s with pumps := put s.pumps t (s.pumps[t].map f) }

/-- Update the tag interface. -/
def State.modTag (s : State) (f : Tag → Tag) : State := { s with tag := f s.tag }
/-- Update the visit. -/
def State.modVisit (s : State) (f : Visit → Visit) : State := { s with visit := f s.visit }
/-- Update the account table. -/
def State.modAccounts (s : State) (f : Accounts → Accounts) : State :=
  { s with accounts := f s.accounts }
/-- Update the shutdown unit. -/
def State.modShut (s : State) (f : Shutdown → Shutdown) : State := { s with shut := f s.shut }
/-- Update the bay link controller. -/
def State.modLink (s : State) (f : Link → Link) : State := { s with link := f s.link }
/-- Update the link counts. -/
def State.modCounts (s : State) (f : LinkCounts → LinkCounts) : State :=
  s.modLink fun l => { l with counts := f l.counts }
/-- Update a peer table entry. -/
def State.modPeer (s : State) (p : Station) (f : Peer → Peer) : State :=
  s.modLink fun l => { l with peers := put l.peers p (f l.peers[p]) }
/-- Update the store. -/
def State.modStore (s : State) (f : Store → Store) : State := { s with store := f s.store }
/-- Update the record log's volatile side. -/
def State.modNv (s : State) (f : Nv → Nv) : State := { s with nv := f s.nv }
/-- Update the configuration block. -/
def State.modCfg (s : State) (f : Cfg → Cfg) : State := { s with cfg := f s.cfg }
/-- Update the terminal line. -/
def State.modTerm (s : State) (f : Term → Term) : State := { s with term := f s.term }

/-- Do `f` for every hose, 0 first. -/
def forHoses (f : Hose → State → State) (s : State) : State :=
  (indices 4).foldl (fun s h => f h s) s

/-- Do `f` for every tank, 1 first. -/
def forTanks (f : Tank → State → State) (s : State) : State :=
  (indices 8).foldl (fun s t => f t s) s

/-! ## Questions about the whole state -/

/-- R168: a section of the working copy is valid. -/
def State.sectionValid (s : State) (sec : Section) : Bool := s.cfg.valid[sec.index]

/-- The own station number: the one the link controller has taken up, known while the STATION section
is valid (R152). -/
def State.ownNumber (s : State) : Option Station :=
  if s.sectionValid .station then s.link.number else none

/-- R131: the source set is not empty; the own number is in it while an origin stands. -/
def State.holdsBay (s : State) : Bool :=
  s.shut.origin.isSome || (indices 16).any fun p => s.shut.sources[p].isSome

/-- R38: a bay shutdown is held, a lane shutdown is latched or DUPLICATE_STATION is set. -/
def State.shutdownStands (s : State) : Bool :=
  s.holdsBay || s.shut.latch || s.link.dupStation

/-- R119: a hose fault stands on the hose. -/
def State.hoseFaulted (s : State) (h : Hose) : Bool :=
  s.hoses[h].faults.meter || s.hoses[h].faults.valve

/-- The fill is beyond IDLE. -/
def Fill.beyondIdle (f : Fill) : Bool := f.state != .idle

/-- The fill is of kind FILL and beyond IDLE. -/
def Fill.holdsVisit (f : Fill) : Bool := f.beyondIdle && f.kind == some .fill

/-- Every fill of the station is IDLE. -/
def State.allIdle (s : State) : Bool := (indices 4).all fun h => !(s.fill h).beyondIdle

/-- No FILL-kind fill of the station is beyond IDLE. -/
def State.noVisitFill (s : State) : Bool := (indices 4).all fun h => !(s.fill h).holdsVisit

/-- R27: the fill demands its tank. -/
def Fill.demands (f : Fill) : Bool :=
  f.state == .starting || f.state == .flowing || f.state == .slowing || f.state == .held

/-- R27: the station demands a tank. -/
def State.demandsTank (s : State) (t : Tank) : Bool :=
  (indices 4).any fun h => (s.fill h).demands && (s.fill h).tank == some t

/-- R141: the demand mask as it is to be sent, bit t − 1 for tank t. -/
def State.demandMask (s : State) : Byte :=
  if s.shutdownStands || s.laneClosed then 0
  else BitVec.ofNat 8 (bitsNat ((indices 8).map s.demandsTank))

/-- R85: the station is home to a tank. -/
def State.isHome (s : State) (t : Tank) : Bool := s.home[t].isSome

/-- The entry of station `p` is that of the own number, which holds the beacon last formed and is
never SILENT (section 8.8, R149). -/
def State.ownEntry (s : State) (p : Station) : Bool := s.link.number == some p

/-- R97: the tank's home station is another one and SILENT, so its view is UNCERTAIN. -/
def State.homeSilent (s : State) (t : Tank) : Bool :=
  match s.cfg.homeOf[t] with
  | none => false
  | some p => !s.isHome t && !s.ownEntry p && s.link.peers[p].silent

/-- The pump view shows RUNNING (R24, R33). -/
def PumpView.isRunning : PumpView → Bool
  | .known .running _ => true
  | _ => false

/-- R33: the hold cause set is empty. -/
def HoldSet.isEmpty (x : HoldSet) : Bool :=
  !x.pumpLost && !x.homeSilent && !x.tagLost && !x.operator

/-- The fill is in FLOWING or SLOWING. -/
def Fill.dispensing (f : Fill) : Bool := f.state == .flowing || f.state == .slowing

/-- R33: the fill is in FLOWING, SLOWING or HELD. -/
def Fill.running (f : Fill) : Bool := f.dispensing || f.state == .held

/-- R2: the meter's increments go to the fill. -/
def Fill.takesVolume (f : Fill) : Bool := f.dispensing || f.state == .settling

/-- R186: start-up has ended. -/
def State.started (s : State) : Bool := s.phase == .running

/-- The visit's machine id as the beacon carries it, 0 in NONE (R62). -/
def State.visitField (s : State) : U32 :=
  if s.visit.state == .none then 0 else s.visit.machineId.getD 0

/-- R63, R66: a peer entry that is not SILENT shows the machine id in its last beacon. The entry of
the own number holds the own beacon and is no peer's (section 8.8). -/
def State.shownByPeer (s : State) (m : U32) : Bool :=
  (indices 16).any fun p =>
    !s.ownEntry p && s.link.peers[p].heard && !s.link.peers[p].silent &&
      (match s.link.peers[p].fields with
       | none => false
       | some b => b.machineId == m)

/-! ## The log -/

/-- UNCONSUMED records (R159). -/
def State.unconsumed (s : State) : Nat :=
  (s.store.log.filter fun e => !e.2.consumed).length

/-- CONSUMED records (R159). -/
def State.consumedCount (s : State) : Nat :=
  (s.store.log.filter fun e => e.2.consumed).length

/-- The job is a CREEP record write. -/
def Job.isCreep : Job → Bool
  | .record (.creep _) _ => true
  | _ => false

/-- The slot that the record write in progress has taken (R160). -/
def State.takenSlot (s : State) : Option Nat := s.nv.run.bind RecordRun.slot

/-- R159: UNCONSUMED records and reservations. -/
def State.logUse (s : State) : Nat := s.unconsumed + s.nv.reservations

/-- R159: the log is full. -/
def State.logFull (s : State) : Bool := decide (Config.logSlots ≤ s.logUse)

/-- R161: the record in a slot is announced. -/
def State.announced (s : State) (slot : Nat) : Bool := !s.nv.unannounced.contains slot

/-- A list of numbered places with place `n` given entry `x`, places rising. -/
def insertAt {α : Type} (n : Nat) (x : α) : List (Nat × α) → List (Nat × α)
  | [] => [(n, x)]
  | (k, y) :: rest =>
    if n < k then (n, x) :: (k, y) :: rest
    else if n = k then (n, x) :: rest
    else (k, y) :: insertAt n x rest

/-- The entry at a place. -/
def lookupAt {α : Type} (n : Nat) (l : List (Nat × α)) : Option α :=
  (l.find? fun e => e.1 == n).map Prod.snd

/-- The lowest place from `k` on that is not taken, places rising. -/
def lowestFree {α : Type} : Nat → List (Nat × α) → Nat
  | k, [] => k
  | k, (n, _) :: rest => if n = k then lowestFree (k + 1) rest else k

/-! ## Draw totals (R141) -/

/-- The net of a fill that has entered FLOWING and whose record is not yet written. -/
def Fill.liveNet (f : Fill) : Nat :=
  if f.running || f.state == .settling || f.state == .closing then f.net else 0

/-- The net of a closed creep drawn from tank `t`. -/
def closedNet (t : Tank) : Option ClosedCreep → Nat
  | none => 0
  | some c => if c.tank = t then c.net else 0

/-- R19: the meter fields as they stand. -/
def Meter.view (m : Meter) : MeterView :=
  { band := m.band, keff := m.keff, tempStatus := m.tempStatus, t10 := m.lastT10, n := m.lastN,
    mismatchRun := m.mismatchRun, excessRun := m.excessRun, accumulating := m.creep.isSome,
    gross := (match m.creep with
      | none => 0
      | some c => c.gross),
    net := (match m.creep with
      | none => 0
      | some c => c.net),
    waiting := m.waitCreep.isSome }

/-- R19: READ_HOSE returns the meter fields as they stand from here on (log 42). -/
def Meter.show (m : Meter) : Meter := { m with shown := m.view }

/-- R17, R18: the tank of an open accumulation: the hose's tank, and with the HOSES section invalid
the one of its last interval (log 21). -/
def State.creepTank (s : State) (h : Hose) (c : Creep) : Tank :=
  if s.sectionValid .hoses then (tankOf s.cfg.data.hoses[h].tank).getD c.tank else c.tank

/-- R17, R18: the product of an open accumulation, as its tank (log 21). -/
def State.creepProduct (s : State) (h : Hose) (c : Creep) : Byte :=
  if s.sectionValid .hoses then s.cfg.data.hoses[h].product else c.product

/-- The net of an open accumulation drawn from tank `t` (R15). -/
def State.openNet (s : State) (t : Tank) (h : Hose) : Nat :=
  match (s.meter h).creep with
  | none => 0
  | some c => if s.creepTank h c = t then c.net else 0

/-- The live net of one hose for tank `t`. -/
def State.hoseLive (s : State) (t : Tank) (h : Hose) : Nat :=
  (if (s.fill h).tank = some t then (s.fill h).liveNet else 0) +
  s.openNet t h + closedNet t (s.meter h).jobCreep + closedNet t (s.meter h).waitCreep

/-- R141: the station's draw total of a tank. -/
def State.drawTotal (s : State) (t : Tank) : U32 :=
  s.nv.totals[t] +
    BitVec.ofNat 32 ((indices 4).foldl (fun a h => a + s.hoseLive t h) 0)

/-- R141: the distinct tanks the hoses draw, ascending; none with the HOSES section invalid. -/
def State.drawnTanks (s : State) : List Tank :=
  if s.sectionValid .hoses then
    (indices 8).filter fun t => (indices 4).any fun h => tankOf s.cfg.data.hoses[h].tank == some t
  else []

end Sys2Proof.Machine
end

