-- ==== Sys2Proof/Machine/Operands.lean ====
section
/-! DEFINITION. The configured values as the blocks read them: the working copy with a hose's
calibration override (R18, R29, R85, R175), and the arithmetic of the meter factor and the
temperature factor (R4, R6, R7, R88). -/

namespace Sys2Proof.Machine

/-- The HOSES items of a hose in the working copy. -/
def State.hoseCfg (s : State) (h : Hose) : HoseCfg := s.cfg.data.hoses[h]

/-- The TANKS entry of a tank in the working copy. -/
def State.tankCfg (s : State) (t : Tank) : TankCfg := s.cfg.data.tanks[t]

/-- R175: K1000 of a hose, from its override while one stands. -/
def State.k1000 (s : State) (h : Hose) : Nat :=
  match s.hoses[h].override with
  | some o => o.k1000.toNat
  | none => (s.hoseCfg h).k1000.toNat

/-- R175: the correction of a band of a hose, from its override while one stands. -/
def State.correction (s : State) (h : Hose) (band : Fin 4) : Int :=
  match s.hoses[h].override with
  | some o => (#v[o.c0, o.c1, o.c2, o.c3])[band].toInt
  | none => (#v[(s.hoseCfg h).c0, (s.hoseCfg h).c1, (s.hoseCfg h).c2, (s.hoseCfg h).c3])[band].toInt

/-- R4: K1000 × (1,000,000 + c) / 1,000,000 to the nearest integer, an exact half up. -/
def keffOf (k : Nat) (c : Int) : Nat :=
  (((k : Int) * (1000000 + c) + 500000) / 1000000).toNat

/-- R4: Keff of a hose in a band. An invalid HOSES section is not used: without an override the value
is then free (log 46). -/
def State.keffFor (s : State) (h : Hose) (band : Fin 4) : Nat :=
  if s.sectionValid .hoses || s.hoses[h].override.isSome then
    keffOf (s.k1000 h) (s.correction h band)
  else Config.keffMin + (Config.unusedKeff s.clock h band).val

/-- R3: the band selected from the metered count. -/
def bandOf (c : HoseCfg) (inUse : Fin 4) (n : Nat) : Fin 4 :=
  if n = 0 then inUse
  else if n < c.t1.toNat then 0
  else if n < c.t2.toNat then 1
  else if n < c.t3.toNat then 2
  else 3

/-- R6, R88: t10 as used, and its status. -/
def tempOf : Reading → Int × TempStatus
  | .value v => if -400 ≤ v ∧ v ≤ 800 then (v, .valid) else (150, .default)
  | .openLine => (150, .default)
  | .shorted => (150, .default)

/-- R7, R88: the temperature factor in ppm, clamped to 900,000..1,100,000. -/
def tempFactor (alpha : Nat) (t10 : Int) : Nat :=
  (max 900000 (min 1100000 (1000000 - ((alpha : Int) * (t10 - 150)).tdiv 10))).toNat

/-- α of a product code. An invalid PRODUCTS section is not used: the value is then free (log 46). -/
def State.alpha (s : State) (product : Byte) : Nat :=
  if s.sectionValid .products then
    match productOf product with
    | none => 0
    | some p => s.cfg.data.products[p].alpha.toNat
  else (Config.unusedAlpha s.clock product).val

/-- The product code is of kind LUBE; free with an invalid PRODUCTS section (log 46). -/
def State.isLube (s : State) (product : Byte) : Bool :=
  if s.sectionValid .products then
    match productOf product with
    | none => false
    | some p => s.cfg.data.products[p].kind == 2
  else Config.unusedKindIsLube s.clock product

/-- The lube slot of a hose; free with an invalid HOSES section (log 46). -/
def State.lubeSlotNow (s : State) (h : Hose) : Option LubeSlot :=
  if s.sectionValid .hoses then lubeSlotOf (s.hoseCfg h).lubeSlot
  else some (Config.unusedLubeSlot s.clock h)

/-- The minimum opening of a hose; free with an invalid HOSES section (log 58). -/
def State.minOpening (s : State) (h : Hose) : Nat :=
  if s.sectionValid .hoses then (s.hoseCfg h).minimum.toNat
  else (Config.unusedMinimum s.clock h).val

/-- The step-down of a hose; free with an invalid HOSES section, and at least 1 (log 58). -/
def State.stepDown (s : State) (h : Hose) : Nat :=
  if s.sectionValid .hoses then (s.hoseCfg h).stepDown.toNat
  else 1 + (Config.unusedStepDown s.clock h).val

/-- R29: the slow command, at least the minimum opening. -/
def State.slowCommand (s : State) (h : Hose) : Nat :=
  Nat.max (s.hoseCfg h).slow.toNat (s.minOpening h)

/-- R29: the full command, at least the slow command. -/
def State.fullCommand (s : State) (h : Hose) : Nat :=
  Nat.max (s.hoseCfg h).full.toNat (s.slowCommand h)

/-- Section 2.3: the valve target of a fill state. -/
def State.valveTarget (s : State) (h : Hose) : FillState → Nat
  | .flowing => s.fullCommand h
  | .slowing => s.slowCommand h
  | _ => 0

/-- R28: one step of the ramp. -/
def rampStep (cmd target minimum up down : Nat) : Nat :=
  if cmd < target then
    if cmd < minimum then minimum else Nat.min (cmd + up) target
  else if target = cmd then cmd
  else if target = 0 then
    if cmd - down < minimum then 0 else cmd - down
  else Nat.max (cmd - down) target

/-- The place of a class among the items of ACCOUNT RULES (section 10.1). -/
def MachineClass.place : MachineClass → Fin 3
  | .haul => 0
  | .support => 1
  | .priority => 2

/-- R55, R63, R81: the default fuel capacity of a class (ACCOUNT RULES). An invalid section is not used:
the value is then free (log 70). -/
def State.fuelDefault (s : State) (c : MachineClass) : Nat :=
  if s.sectionValid .rules then s.cfg.data.rules.fuelDefault[c.place].toNat
  else (Config.unusedFuelDefault s.clock c.place).toNat

/-- The default lube capacity of a slot (ACCOUNT RULES), free with an invalid section (log 70). -/
def State.lubeDefault (s : State) (slot : LubeSlot) : Nat :=
  if s.sectionValid .rules then s.cfg.data.rules.lubeDefault[slot].toNat
  else (Config.unusedLubeDefault s.clock slot).toNat

/-- The slot defaults of all three slots. -/
def State.lubeDefaults (s : State) : Vector Nat 3 :=
  #v[s.lubeDefault 0, s.lubeDefault 1, s.lubeDefault 2]

/-- R63: a lube capacity of 0 is replaced by the default of its slot. -/
def State.lubeResolved (s : State) (caps : Vector Nat 3) : Vector Nat 3 :=
  Vector.ofFn fun slot => if caps[slot] = 0 then s.lubeDefault slot else caps[slot]

/-- R11: a temperature sum over its gross, truncated toward zero; 150 when the gross is 0. -/
def tempAverage (sum : Int) (gross : Nat) : Int :=
  if gross = 0 then 150 else sum.tdiv gross

end Sys2Proof.Machine
end

