-- ==== Sys2Proof/Machine/Jobs.lean ====
section
/-! DEFINITION. The program job queue (R155, R156), what a record write takes at its first step
(R157, R160), what each job has written when it completes, and the reads the store corrects
(R164). -/

namespace Sys2Proof.Machine

/-! ## Words read with an error (R164) -/

/-- R164: one word read with its error. -/
def State.readError (s : State) (e : StoreError) : State :=
  if e.double then
    (s.modNv fun n =>
      { n with dc := Nat.min (n.dc + 1) Config.eccMax, dcCap := n.dcCap <|> some (e.area, e.word) }
    ).raise .nv
  else
    (s.modNv fun n =>
      { n with sc := Nat.min (n.sc + 1) Config.eccMax, scCap := n.scCap <|> some (e.area, e.word) }
    ).raiseIf s.nv.scCap.isNone .nv

/-- R164: the words selected by `p` are read, those that hold an error among them, in the order in which
`Store.errs` marks them (log 68). -/
def State.readStore (s : State) (p : StoreError → Bool) : State :=
  (s.store.errs.filter p).foldl State.readError s

/-- Some word selected by `p` reads with a double error. -/
def State.readsDouble (s : State) (p : StoreError → Bool) : Bool :=
  s.store.errs.any fun e => p e && e.double

/-- Some word selected by `p` reads with a single error. -/
def State.readsSingle (s : State) (p : StoreError → Bool) : Bool :=
  s.store.errs.any fun e => p e && !e.double

/-- R173: words written carry a fresh code. -/
def State.freshCode (s : State) (p : StoreError → Bool) : State :=
  s.modStore fun st => { st with errs := st.errs.filter fun e => !p e }

/-- The word belongs to an area. -/
def inArea (a : Area) (e : StoreError) : Bool := e.area == a

/-! ## The queue (R155) -/

/-- R160: the lowest-numbered FREE slot, else the CONSUMED announced slot of the lowest
sequence. -/
def State.takeSlot (s : State) : Option Nat :=
  let free := lowestFree 0 s.store.log
  if free < Config.logSlots then some free
  else
    (s.store.log.filter fun e => e.2.consumed && s.announced e.1).foldl
      (fun best e =>
        match best with
        | none => some e.1
        | some b =>
          match lookupAt b s.store.log with
          | none => some e.1
          | some x => if e.2.record.seq.toNat < x.record.seq.toNat then some e.1 else some b)
      none

/-- R157, R160: what a record write takes when it begins: its slot and, for a CREEP or RECEIPT
record, the next sequence number; a CREEP record is deferred while the log is full. -/
def State.beginRecord (s : State) (owner : RecordOwner) (r : Record) : State :=
  match owner with
  | .creep _ =>
    if s.logFull then
      s.modNv fun n => { n with run := some { slot := none, seq := r.seq, reads := 0 } }
    else s.modNv fun n =>
      { n with run := some { slot := s.takeSlot, seq := n.nextSeq, reads := 0 },
               nextSeq := n.nextSeq + 1 }
  | .receipt =>
    s.modNv fun n =>
      { n with run := some { slot := s.takeSlot, seq := n.nextSeq, reads := 0 },
               nextSeq := n.nextSeq + 1 }
  | .fill _ =>
    s.modNv fun n => { n with run := some { slot := s.takeSlot, seq := r.seq, reads := 0 } }
  | .interrupted _ =>
    s.modNv fun n => { n with run := some { slot := s.takeSlot, seq := r.seq, reads := 0 } }

/-- R155: the job at the front of the queue begins. -/
def State.beginJob (s : State) : State :=
  match s.nv.queue with
  | .record owner r :: _ => s.beginRecord owner r
  | _ => s

/-- R155: a job is offered; it enters the queue, beginning at once in an empty one, or is held. -/
def State.offerJob (s : State) (j : Job) : State :=
  if s.nv.queue.length < Config.jobPlaces then
    let s' := s.modNv fun n => { n with queue := n.queue ++ [j] }
    if s.nv.queue.isEmpty then s'.beginJob else s'
  else s.modNv fun n => { n with held := n.held ++ [j] }

/-- R155: the job in progress leaves the queue, the first held offer enters, the next job
begins. -/
def State.leaveJob (s : State) : State :=
  (s.modNv fun n =>
    match n.held with
    | [] => { n with queue := n.queue.tail, run := none }
    | j :: rest => { n with queue := n.queue.tail ++ [j], held := rest, run := none }).beginJob

/-- The job is a checkpoint write of hose `h`. -/
def Job.isCheckpointOf (h : Hose) : Job → Bool
  | .checkpoint h' _ _ => h' == h
  | _ => false

/-- R44: a waiting checkpoint job of hose `h` is replaced in its place; an entry checkpoint
replaced leaves its mark on the job that replaces it. -/
def replaceCheckpoint (h : Hose) (entry : Bool) (c : Checkpoint) : Job → Job
  | .checkpoint h' e old =>
    if h' = h then .checkpoint h' (e || entry) c else .checkpoint h' e old
  | j => j

/-- R44: a checkpoint job is queued, or replaces the one of its hose that waits. -/
def State.offerCheckpoint (s : State) (h : Hose) (entry : Bool) (c : Checkpoint) : State :=
  if s.nv.queue.tail.any (Job.isCheckpointOf h) || s.nv.held.any (Job.isCheckpointOf h) then
    s.modNv fun n =>
      { n with queue := n.queue.take 1 ++ n.queue.tail.map (replaceCheckpoint h entry c),
               held := n.held.map (replaceCheckpoint h entry c) }
  else s.offerJob (.checkpoint h entry c)

/-! ## Creep records (R17, R160) -/

/-- R17: the record of a closed creep; its sequence is drawn when its job begins. -/
def ClosedCreep.record (c : ClosedCreep) (h : Hose) : Record :=
  { seq := 0, kind := .creep, hose := some h, tank := c.tank, product := c.product,
    lubeSlot := none, machineId := none, cls := none, hours := none, preset := none,
    net := c.net, gross := some c.gross, tempAvg := some (tempAverage c.tempSum c.gross),
    startTime := c.startTime, endTime := c.endTime, endCause := none, credit := none,
    flags :=
      { fill :=
          { FillFlags.clear with
            overrange := c.flags.overrange, tempDefault := c.flags.tempDefault,
            limit := c.flags.limit },
        negative := false, startDegraded := false, endDegraded := false, overStrap := false },
    receipt := none, damaged := false }

/-- R17: one closed creep merged into a waiting one: the later end time stands. The tank and product
stay those of the waiting one, also where a reload has moved the hose to another tank (log 44). -/
def ClosedCreep.merge (a b : ClosedCreep) : ClosedCreep :=
  { a with gross := a.gross + b.gross, net := a.net + b.net, tempSum := a.tempSum + b.tempSum,
           endTime := if a.endTime.toNat ≤ b.endTime.toNat then b.endTime else a.endTime,
           flags := { overrange := a.flags.overrange || b.flags.overrange,
                      tempDefault := a.flags.tempDefault || b.flags.tempDefault,
                      limit := a.flags.limit || b.flags.limit } }

/-- R17: no CREEP record job is in the queue or held. -/
def State.noCreepJob (s : State) : Bool :=
  !(s.nv.queue.any Job.isCreep || s.nv.held.any Job.isCreep)

/-- R17, R160: the waiting closed creep of a hose may be queued: a deferred one only with the log
not full. -/
def State.creepReady (s : State) (h : Hose) : Bool :=
  match (s.meter h).waitCreep with
  | none => false
  | some c => !c.deferred || !s.logFull

/-- R17: the hose whose waiting closed creep is queued first: earliest end time, then hose order. -/
def State.firstCreep (s : State) : Option Hose :=
  (indices 4).foldl
    (fun best h =>
      if s.creepReady h then
        match best with
        | none => some h
        | some b =>
          match (s.meter b).waitCreep, (s.meter h).waitCreep with
          | some x, some y => if y.endTime.toNat < x.endTime.toNat then some h else some b
          | _, _ => some b
      else best)
    none

/-- R17: queue the first waiting closed creep when no CREEP record job is in the queue. -/
def State.offerCreep (s : State) : State :=
  if s.noCreepJob then
    match s.firstCreep with
    | none => s
    | some h =>
      match (s.meter h).waitCreep with
      | none => s
      | some c =>
        let s' := s.modMeter h fun m =>
          { m with jobCreep := some { c with deferred := false }, waitCreep := none }
        s'.offerJob (.record (.creep h) (c.record h))
  else s

/-- R17: a closed creep waits to be queued, merged into one that waits already. -/
def State.closeCreep (s : State) (h : Hose) (c : ClosedCreep) : State :=
  s.modMeter h fun m =>
    { m with waitCreep :=
        match m.waitCreep with
        | none => some c
        | some w => some (w.merge c) }

/-- R160: the creep in a deferred job waits again, with one that waits beside it merged in. -/
def State.deferCreep (s : State) (h : Hose) : State :=
  s.modMeter h fun m =>
    { m with jobCreep := none,
             waitCreep :=
               match m.jobCreep with
               | none => m.waitCreep
               | some c =>
                 match m.waitCreep with
                 | none => some { c with deferred := true }
                 | some w => some { c.merge w with deferred := true } }

/-! ## What the store holds after a job, whole or cut short after `steps` steps (R154) -/

/-- R157: the record as its job writes it, with the sequence the job took. -/
def RecordRun.record (run : RecordRun) (r : Record) : Record := { r with seq := run.seq }

/-- R157 steps 1 and 2: before the complete marker the reused slot holds no record, after it the
new one. -/
def Store.writeSlot (st : Store) (slot steps : Nat) (r : Record) : Store :=
  if steps = 0 then st
  else if steps = 1 then { st with log := st.log.filter fun e => e.1 != slot }
  else
    { st with log :=
        insertAt slot { record := r, totalled := decide (4 ≤ steps), consumed := false } st.log }

/-- R157 step 3: the tank word absorbs the record's net; skipped for a RECEIPT. -/
def Store.absorb (st : Store) (r : Record) : Store :=
  if r.kind = .receipt then st
  else
    { st with
      totals := put st.totals r.tank
        { total := st.totals[r.tank].total + BitVec.ofNat 32 r.net, applied := r.seq } }

/-- R157 step 5: both checkpoint copies of a hose are cleared. -/
def Store.clearCheckpoint (st : Store) (h : Hose) : Store :=
  { st with copyA := put st.copyA h none, copyB := put st.copyB h none }

/-- The hose whose checkpoint a record write clears. -/
def RecordOwner.checkpointHose : RecordOwner → Option Hose
  | .fill h => some h
  | .interrupted h => some h
  | .creep _ => none
  | .receipt => none

/-- R157: the store after the first `steps` of the five steps of a record write. -/
def Store.recordSteps (st : Store) (steps : Nat) (owner : RecordOwner) (slot : Nat) (r : Record) :
    Store :=
  let st := st.writeSlot slot steps r
  let st := if 3 ≤ steps then st.absorb r else st
  if 5 ≤ steps then
    match owner.checkpointHose with
    | none => st
    | some h => st.clearCheckpoint h
  else st

/-- R166: the newer of the two copies of a hose that has its complete marker; `true` is B. -/
def Store.newerCopy (st : Store) (h : Hose) : Option (Bool × CheckpointCopy) :=
  match st.copyA[h], st.copyB[h] with
  | some a, some b =>
    if a.complete && b.complete then
      if a.writes < b.writes then some (true, b) else some (false, a)
    else if a.complete then some (false, a)
    else if b.complete then some (true, b)
    else none
  | some a, none => if a.complete then some (false, a) else none
  | none, some b => if b.complete then some (true, b) else none
  | none, none => none

/-- R154, R165: the high-water that recovery goes by. It judges a job by its markers, so of an entry
checkpoint that was cut before its complete marker the word it wrote does not count (log 45). -/
def Store.judgedHighWater (st : Store) : U32 := st.highWaterBefore.getD st.highWater

/-- R156: the store after the first word of an entry checkpoint, the high-water, which never falls
(log 37); `whole` when the job is done to its complete marker. -/
def Store.raiseHighWater (st : Store) (q : U32) (whole : Bool) : Store :=
  { st with
    highWater := BitVec.ofNat 32 (Nat.max st.highWater.toNat q.toNat),
    highWaterBefore := if whole then none else some st.judgedHighWater }

/-- R156: the store after the first `steps` of the steps of a checkpoint write: the high-water of
an entry checkpoint, the clearing of the older copy, the copy with its marker. With no complete copy it
writes A, its write count 1 (log 80). -/
def Store.checkpointSteps (st : Store) (steps : Nat) (h : Hose) (entry : Bool) (c : Checkpoint) :
    Store :=
  let copy : Option CheckpointCopy :=
    if 3 ≤ steps then
      some { data := c, complete := true,
             writes := (match st.newerCopy h with
                        | none => 0
                        | some (_, x) => x.writes) + 1 }
    else none
  let st' := if entry && decide (1 ≤ steps) then st.raiseHighWater c.seq (decide (3 ≤ steps)) else st
  if 2 ≤ steps then
    match st.newerCopy h with
    | some (false, _) => { st' with copyB := put st'.copyB h copy }
    | _ => { st' with copyA := put st'.copyA h copy }
  else st'

/-- R163: the log with the records of some slots consumed. -/
def Store.consume (st : Store) (slots : List Nat) : Store :=
  { st with log := st.log.map fun e =>
      if slots.contains e.1 then (e.1, { e.2 with consumed := true }) else e }

/-- R154: the record of a slot with its totalled marker. -/
def Store.markTotalled (st : Store) (slot : Nat) : Store :=
  { st with log := st.log.map fun e =>
      if e.1 = slot then (e.1, { e.2 with totalled := true }) else e }

/-- R165: the store after the first `steps` of the steps of a totals update: the tank word, where
there is one to write, then the totalled marker. -/
def Store.totalSteps (st : Store) (steps : Nat) (t : Tank) (w : Option TankWord)
    (slot : Option Nat) : Store :=
  let words := if w.isSome then 1 else 0
  let st' :=
    match w with
    | none => st
    | some x => if 1 ≤ steps then { st with totals := put st.totals t x } else st
  match slot with
  | none => st'
  | some n => if words + 1 ≤ steps then st'.markTotalled n else st'

/-- R173: how many bytes of a config write its first `steps` words hold. -/
def bytesOfWords (offset n steps : Nat) : Nat :=
  if steps = 0 then 0
  else
    Nat.min n
      ((((wordsTouched offset n).take steps).getLastD 0 + 1) * Config.storeWordBytes - offset)

/-- R154: what a job has written after `steps` of its words or steps. A consume marks job cut short
leaves its records UNCONSUMED (R163, log 53). -/
def Store.jobSteps (st : Store) (job : Job) (run : Option RecordRun) (steps : Nat) : Store :=
  match job with
  | .record owner r =>
    (match run with
     | none => st
     | some x =>
       match x.slot with
       | none => st
       | some slot => st.recordSteps steps owner slot (x.record r))
  | .checkpoint h entry c => st.checkpointSteps steps h entry c
  | .epochUpdate e => if 1 ≤ steps then { st with epoch := e } else st
  | .totalUpdate t w slot => st.totalSteps steps t w slot
  | .consume _ _ => st
  | .configWrite sec offset bytes =>
    { st with
      config :=
        writeSection st.config sec offset (bytes.take (bytesOfWords offset bytes.length steps)) }
  | .lock sec => if 1 ≤ steps then { st with locks := put st.locks sec.index true } else st

/-- R156, R157: a word that a record write has written after `steps` of its steps. -/
def recordWords (steps : Nat) (owner : RecordOwner) (slot : Nat) (r : Record) (e : StoreError) :
    Bool :=
  (decide (1 ≤ steps) && e.area == .slot slot) ||
    (decide (3 ≤ steps) && r.kind != .receipt && e.area == .total r.tank) ||
    (match owner.checkpointHose with
     | none => false
     | some h =>
       decide (5 ≤ steps) && (e.area == .checkpoint h false || e.area == .checkpoint h true))

/-- The copy that a checkpoint write of a hose writes is B. -/
def Store.writesCopyB (st : Store) (h : Hose) : Bool :=
  match st.newerCopy h with
  | some (false, _) => true
  | _ => false

/-- R156: a word that a checkpoint write has written after `steps` of its steps. -/
def checkpointWords (steps : Nat) (h : Hose) (copyB entry : Bool) (e : StoreError) : Bool :=
  (decide (2 ≤ steps) && e.area == .checkpoint h copyB) ||
    (entry && decide (1 ≤ steps) && e.area == .highWater)

/-- R173: a word that a config write of `n` bytes has written and that carries a fresh code: a word
with two wrong bits only where all its bytes are written. -/
def configWords (sec : Section) (offset n : Nat) (e : StoreError) : Bool :=
  e.area == .config sec && (wordsTouched offset n).contains e.word &&
    (!e.double || wordWhole sec offset n e.word)

/-- R154: a word that a job has written after `steps` of its words or steps. -/
def Store.jobWords (st : Store) (job : Job) (run : Option RecordRun) (steps : Nat)
    (e : StoreError) : Bool :=
  match job with
  | .record owner r =>
    (match run.bind RecordRun.slot with
     | none => false
     | some slot => recordWords steps owner slot r e)
  | .checkpoint h entry _ => checkpointWords steps h (st.writesCopyB h) entry e
  | .epochUpdate _ => decide (1 ≤ steps) && inArea .epoch e
  | .totalUpdate t w _ => decide (1 ≤ steps) && w.isSome && inArea (.total t) e
  | .consume _ _ => false
  | .configWrite sec offset bytes =>
    configWords sec offset (bytesOfWords offset bytes.length steps) e
  | .lock sec => decide (1 ≤ steps) && inArea (.lock sec) e

/-- R154: the store when a reset arrives with the job in progress after `steps` of its words or
steps: the words written carry a fresh code. -/
def Store.torn (st : Store) (job : Option Job) (run : Option RecordRun) (steps : Nat) : Store :=
  match job with
  | none => st
  | some j =>
    { st.jobSteps j run steps with errs := st.errs.filter fun e => !st.jobWords j run steps e }

/-! ## Completions -/

/-- R157, R161: a record write that has a slot completes: the store and the working index. -/
def State.recordWritten (s : State) (owner : RecordOwner) (slot : Nat) (r : Record) : State :=
  let st := s.store.recordSteps 5 owner slot r
  let s := { s with store := st }
  let s := s.freshCode (recordWords 5 owner slot r)
  let s := s.modNv fun n =>
    { n with totals := if r.kind = .receipt then n.totals
                       else put n.totals r.tank st.totals[r.tank].total,
             unannounced := (n.unannounced.filter fun k => k != slot) ++
               (if r.kind = .fill then [slot] else []),
             reservations := (match owner with
               | .fill _ => n.reservations - 1
               | .receipt => n.reservations - 1
               | _ => n.reservations) }
  s.raiseIf (s.unconsumed == Config.nearlyFull) .nv

/-- R156: a checkpoint write completes. -/
def State.checkpointWritten (s : State) (h : Hose) (entry : Bool) (c : Checkpoint) : State :=
  let b := s.store.writesCopyB h
  (s.modStore fun st => st.checkpointSteps 3 h entry c).freshCode
    (checkpointWords 3 h b entry)

end Sys2Proof.Machine
end

