-- ==== Sys2Proof/Machine/TxQueue.lean ====
section
/-! DEFINITION. The transmit queue and its pending offers (section 8.5), and the summaries of
unannounced records (R142). -/

namespace Sys2Proof.Machine

/-- A waiting frame of a kind: in the queue and not being sent. -/
def TxEntry.waits (kind : Nat) (e : TxEntry) : Bool := !e.sending && e.frame.kind == kind

/-- A frame of a kind waits in the queue. -/
def Link.waiting (l : Link) (kind : Nat) : Bool := l.txQueue.any (TxEntry.waits kind)

/-- A place of the queue is free. -/
def Link.hasPlace (l : Link) : Bool := decide (l.txQueue.length < Config.txPlaces)

/-- R152: at an IDLE line the number and rate of a reload that wait for it are taken up. -/
def Link.takeUp (l : Link) : Link :=
  match l.next with
  | none => l
  | some x => { l with number := x.1, rate := x.2, next := none }

/-- R145: a frame has entered the queue, which is a newer beacon for an attempt under way on one. -/
def Link.noteBeacon (l : Link) (f : TxFrame) : Link :=
  { l with newBeacon := l.newBeacon || f.kind == 7 }

/-- The frame takes a free place. -/
def Link.enter (l : Link) (f : TxFrame) : Link :=
  { l.noteBeacon f with txQueue := l.txQueue ++ [{ frame := f, sending := false }] }

/-- R143: the waiting frame of a kind is replaced in its place. -/
def Link.replaceWaiting (l : Link) (f : TxFrame) : Link :=
  { l with txQueue := l.txQueue.map fun e =>
      if e.waits f.kind then { frame := f, sending := false } else e }

/-- R127: a RESTORE that waits is withdrawn. -/
def Link.withdrawRestore (l : Link) : Link :=
  { l with txQueue := l.txQueue.filter fun e => !e.waits 1 }

/-- R143, R145: what an attempt that ends without its frame sent leaves of the queue, nothing being sent
any more. A beacon is discarded when a newer one entered the queue during the attempt. A RESTORE is
withdrawn, and an older SPILL replaced, when a SPILL waits: one that was there at the attempt's start
would have been sent first, so it is the newer, and at most one waits (log 74). Any other frame stays in
its place. -/
def failedQueue (newBeacon : Bool) (q : List TxEntry) : List TxEntry :=
  (q.filter fun e =>
    !(e.sending && ((e.frame.kind == 7 && newBeacon) ||
      (decide (e.frame.kind ≤ 1) && q.any (TxEntry.waits 0))))).map fun e =>
    { e with sending := false }

/-- R144: an offer becomes pending, not doubled. -/
def addPending (t : Tank) (l : List Tank) : List Tank :=
  if l.contains t then l else l ++ [t]

/-- R153: the queries dropped count. -/
def Link.dropQuery (l : Link) : Link :=
  { l with counts := { l.counts with queriesDropped := sat16 l.counts.queriesDropped } }

/-- R153: the replies dropped count. -/
def Link.dropReply (l : Link) : Link :=
  { l with counts := { l.counts with repliesDropped := sat16 l.counts.repliesDropped } }

/-- R144: what becomes of a displaced frame. A displaced summary leaves its record
unannounced. -/
def Link.displacedFrame (l : Link) : TxFrame → Link
  | .beacon b => { l with pendBeacon := l.pendBeacon <|> some b }
  | .pump t _ _ => { l with pendPump := addPending t l.pendPump }
  | .gauge t _ => { l with pendGauge := addPending t l.pendGauge }
  | .query _ => l.dropQuery
  | .reply1 _ => l.dropReply
  | .reply2 _ => l.dropReply
  | .summary _ _ => l
  | .spill _ => l
  | .restore => l

/-- R144: the highest kind number among the frames not being sent. -/
def highestWaiting (q : List TxEntry) : Nat :=
  q.foldl (fun k e => if e.sending then k else Nat.max k e.frame.kind) 0

/-- The queue with its last entry that satisfies `p` taken out, and that entry. -/
def takeLast (p : TxEntry → Bool) : List TxEntry → Option (TxEntry × List TxEntry)
  | [] => none
  | e :: rest =>
    match takeLast p rest with
    | some (x, q) => some (x, e :: q)
    | none => if p e then some (e, rest) else none

/-- R144: a SPILL or RESTORE displaces the frame that entered last among those of the highest
kind. -/
def Link.displace (l : Link) (f : TxFrame) : Link :=
  match takeLast (TxEntry.waits (highestWaiting l.txQueue)) l.txQueue with
  | none => l
  | some (e, q) =>
    Link.displacedFrame
      { l with txQueue := q ++ [{ frame := f, sending := false }],
               counts := { l.counts with displaced := sat16 l.counts.displaced } }
      e.frame

/-- R143, R144: a frame is offered to the transmit queue. -/
def Link.offer (l : Link) (f : TxFrame) : Link :=
  match f with
  | .beacon b =>
    if l.waiting 7 || l.pendBeacon.isSome then
      { l.replaceWaiting f with
        pendBeacon := l.pendBeacon.map fun _ => b, newBeacon := l.newBeacon || l.waiting 7 }
    else if l.hasPlace then l.enter f
    else { l with pendBeacon := some b }
  | .spill _ =>
    let l := l.withdrawRestore
    if l.waiting 0 then l.replaceWaiting f
    else if l.hasPlace then l.enter f
    else l.displace f
  | .restore => if l.hasPlace then l.enter f else l.displace f
  | .pump t _ _ =>
    if l.hasPlace then l.enter f else { l with pendPump := addPending t l.pendPump }
  | .gauge t _ =>
    if l.hasPlace then l.enter f else { l with pendGauge := addPending t l.pendGauge }
  | .query _ => if l.hasPlace then l.enter f else l.dropQuery
  | .reply1 _ => if l.hasPlace then l.enter f else l.dropReply
  | .reply2 _ => if l.hasPlace then l.enter f else l.dropReply
  | .summary _ _ => if l.hasPlace then l.enter f else l

/-- R91: what a GAUGE frame of a home tank unit carries as it stands. -/
def HomeUnit.gaugeFields (u : HomeUnit) : GaugeFields :=
  { gauged := u.gauged.map Gauged.litres, level := u.level.getD 0, state := u.stockState,
    recon := u.recon,
    degraded := (match u.gauged with
      | none => false
      | some g => g.degraded),
    overStrap := u.overStrap, tempDefault := u.tempStatus == .default }

/-- R144: the first pending PUMP enters with the pump state as it stands; one of a tank without a
controller is dropped. -/
def State.enterPump (s : State) (t : Tank) : State :=
  let s := s.modLink fun l => { l with pendPump := l.pendPump.tail }
  match s.pumps[t] with
  | none => s
  | some p => s.modLink fun l => l.enter (.pump t p.state p.reason)

/-- R144: the first pending GAUGE enters with the values as they stand. -/
def State.enterGauge (s : State) (t : Tank) : State :=
  let s := s.modLink fun l => { l with pendGauge := l.pendGauge.tail }
  match s.home[t] with
  | none => s
  | some u => s.modLink fun l => l.enter (.gauge t u.gaugeFields)

/-- R144: one pending offer enters a free place: PUMP, then GAUGE, then the beacon. -/
def State.enterPending (s : State) : State :=
  if s.link.hasPlace then
    match s.link.pendPump, s.link.pendGauge, s.link.pendBeacon with
    | t :: _, _, _ => s.enterPump t
    | [], t :: _, _ => s.enterGauge t
    | [], [], some b =>
      s.modLink fun l => { l.enter (.beacon b) with pendBeacon := none }
    | [], [], none => s
  else s

/-- R144: pending offers enter while places are free; at most 17 are pending. -/
def State.fillPlaces (s : State) : State :=
  (List.range 17).foldl (fun s _ => s.enterPending) s

/-! ## Summaries (R142) -/

/-- R142: what the summary of a record carries. -/
def Record.summary (r : Record) : SummaryFields :=
  { seq := r.seq, machineId := r.machineId.getD 0, lubeSlot := r.lubeSlot,
    net := BitVec.ofNat 32 r.net, hours := r.hours.getD 0,
    dhUsed := (match r.credit with
      | none => 0
      | some c => c.dhUsed),
    rate := r.credit.bind Credit.rate,
    fillCount := (match r.credit with
      | none => 0
      | some c => c.fillCount) }

/-- R142: the oldest unannounced record, in sequence order, with its slot. -/
def State.oldestUnannounced (s : State) : Option (Nat × Record) :=
  s.nv.unannounced.foldl
    (fun best slot =>
      match lookupAt slot s.store.log with
      | none => best
      | some e =>
        match best with
        | none => some (slot, e.record)
        | some (b, r) =>
          if e.record.seq.toNat < r.seq.toNat then some (slot, e.record) else some (b, r))
    none

/-- R142: no fill beyond IDLE holds a sequence lower than `seq`. -/
def State.noLowerFill (s : State) (seq : U32) : Bool :=
  (indices 4).all fun h =>
    !(s.fill h).beyondIdle ||
      (match (s.fill h).seq with
       | none => true
       | some q => decide (seq.toNat ≤ q.toNat))

/-- R142: a summary is in the queue. -/
def Link.hasSummary (l : Link) : Bool := l.txQueue.any fun e => e.frame.kind == 4

/-- R142: a beacon is in the queue, one being sent among them (the summary of section 8.6 is offered
only once the beacon has been sent), or pending. -/
def Link.hasBeacon (l : Link) : Bool :=
  (l.txQueue.any fun e => e.frame.kind == 7) || l.pendBeacon.isSome

/-- R142, R161: recovery has ended, with every record marked that is to be announced. -/
def State.recovered (s : State) : Bool := s.phase == .beacon || s.phase == .running

/-- R142: the summary of the oldest unannounced record is offered when its turn comes, after
recovery. -/
def State.offerSummary (s : State) : State :=
  if s.recovered && s.link.hasPlace && !s.link.hasSummary && !s.link.hasBeacon then
    match s.oldestUnannounced with
    | none => s
    | some (slot, r) =>
      if s.noLowerFill r.seq then s.modLink fun l => l.offer (.summary slot r.summary) else s
  else s

/-- R142, R144: free places are filled: pending offers first, then a summary. -/
def State.tidyQueue (s : State) : State := s.fillPlaces.offerSummary

end Sys2Proof.Machine
end

