-- ==== Sys2Proof/Machine/AccountOps.lean ====
section
/-! DEFINITION. The account table: creation and eviction (R75), crediting (R77, R78), summaries
(R80, R81), the two parts of a reply (R69, R189) and the allowance (R82 to R84). -/

namespace Sys2Proof.Machine

/-- The position of the record of a machine. -/
def Accounts.find (a : Accounts) (m : U32) : Option (Nat × Account) :=
  a.records.find? fun e => e.2.machineId == m

/-- The record at a position. -/
def Accounts.at? (a : Accounts) (p : Nat) : Option Account := lookupAt p a.records

/-- The record at a position replaced. -/
def Accounts.set (a : Accounts) (p : Nat) (r : Account) : Accounts :=
  { a with records := insertAt p r a.records }

/-- R75: the record evicted: the oldest last used among those not in use, lowest position
first. -/
def Accounts.victim (a : Accounts) : Option Nat :=
  (a.records.foldl
    (fun (best : Option (Nat × Account)) e =>
      if e.2.inUse then best
      else
        match best with
        | none => some e
        | some b => if e.2.lastUsed.toNat < b.2.lastUsed.toNat then some e else some b)
    none).map Prod.fst

/-- R75: a record is created in the lowest free position, or in that of the record evicted. -/
def Accounts.create (a : Accounts) (r : Account) : Accounts :=
  let free := lowestFree 0 a.records
  if free < Config.accountPositions then a.set free r
  else
    match a.victim with
    | none => a
    | some p => { a.set p r with evictions := sat16 a.evictions }

/-- A fresh record of a machine: counts and totals 0, hours and rate absent (R71). -/
def Account.fresh (m : U32) (cls : MachineClass) (fuel : Nat) (lube : Vector Nat 3)
    (source : AccountSource) (now : U32) (inUse : Bool) : Account :=
  { machineId := m, cls := cls, fuelCap := fuel, lubeCap := lube, lastHours := none, rate := none,
    fillCount := 0, totalFuel := 0, hoursAccounted := 0, lubeTotals := Vector.replicate 3 0,
    lubeRes := Vector.replicate 3 0, source := source, stale := false, lastUsed := now,
    inUse := inUse }

/-- R68: the visit's machine is marked in use from QUERYING on. -/
def State.visitUses (s : State) (m : U32) : Bool :=
  s.visit.state != .none && s.visit.machineId == some m

/-- R62: the visit's account position follows the record of its machine, once held. -/
def State.findPosition (s : State) : State :=
  match s.visit.machineId with
  | none => s
  | some m =>
    if s.visit.state = .none then s
    else s.modVisit fun v => { v with position := (s.accounts.find m).map Prod.fst }

/-! ## Crediting (R77, R78) -/

/-- R77, R80: a rate estimate moved a quarter of the way to a sample, truncating toward zero. -/
def smoothRate (est : Option Nat) (r : Nat) : Nat :=
  match est with
  | none => r
  | some e => ((e : Int) + ((r : Int) - (e : Int)).tdiv 4).toNat

/-- R77: the sample of a fill of `v` mL over `d` decihours. -/
def rateSample (v d : Nat) : Nat := Nat.min (v * 10 / d) Config.rateMax

/-- R78: litres moved from a slot's residue into its total. -/
def Account.addLube (a : Account) (slot : LubeSlot) (v : Nat) : Account :=
  let sum := a.lubeRes[slot] + v
  { a with lubeTotals := put a.lubeTotals slot (a.lubeTotals[slot] + BitVec.ofNat 32 (sum / 1000)),
           lubeRes := put a.lubeRes slot (sum % 1000) }

/-- R77, R80: last fill hours move on to `h` when absent or lower. -/
def laterHours (last : Option Nat) (h : Nat) : Option Nat :=
  match last with
  | none => some h
  | some l => if l < h then some h else some l

/-- What crediting returns (R78): the hours flags and the credit of the record. -/
structure CreditResult where
  notAdvanced : Bool
  gap : Bool
  credit : Credit
  deriving DecidableEq, Repr

/-- R77: a diesel fill of `v` mL at hours `h`: the record, the Δh used and the hours flags
(HOURS_NOT_ADVANCED, HOURS_GAP). -/
def Account.addDiesel (a : Account) (v : Nat) (h : Option Nat) : Account × Nat × Bool × Bool :=
  let moved :=
    { a with totalFuel := a.totalFuel + BitVec.ofNat 32 v,
             lastHours := (match h with
               | none => a.lastHours
               | some x => if v = 0 then a.lastHours else laterHours a.lastHours x) }
  match h, a.lastHours with
  | some x, some l =>
    if v = 0 then (moved, 0, false, false)
    else if x ≤ l then (moved, 0, true, false)
    else if Config.hoursGapLimit < x - l then (moved, 0, false, true)
    else
      ({ moved with rate := some (smoothRate a.rate (rateSample v (x - l))),
                    hoursAccounted := a.hoursAccounted + BitVec.ofNat 32 (x - l) },
       x - l, false, false)
  | _, _ => (moved, 0, false, false)

/-- R77, R78: a closing fill credited to a record. -/
def Account.credit (a : Account) (v : Nat) (slot : Option LubeSlot) (h : Option Nat) (now : U32) :
    Account × CreditResult :=
  let x := match slot with
    | none => a.addDiesel v h
    | some n => (a.addLube n v, 0, false, false)
  let a' := { x.1 with fillCount := sat16 a.fillCount, source := .own, lastUsed := now }
  (a', { notAdvanced := x.2.2.1, gap := x.2.2.2,
         credit := { dhUsed := x.2.1, rate := a'.rate, fillCount := a'.fillCount } })

/-- R78: the credit of a fill whose visit holds no record: nothing used, nothing resulting. -/
def CreditResult.none : CreditResult :=
  { notAdvanced := false, gap := false, credit := { dhUsed := 0, rate := .none, fillCount := 0 } }

/-- R77, R78: a FILL-kind fill is credited to the record at the visit's account position. -/
def State.creditFill (s : State) (v : Nat) (slot : Option LubeSlot) : State × CreditResult :=
  match s.visit.position with
  | .none => (s, CreditResult.none)
  | some p =>
    match s.accounts.at? p with
    | .none => (s, CreditResult.none)
    | some a =>
      let x := a.credit v slot s.visit.hours s.clock
      (s.modAccounts fun t => t.set p x.1, x.2)

/-! ## Summaries (R80, R81) -/

/-- R80: the increment of a summary applied to a record. -/
def Account.addSummary (a : Account) (f : SummaryFields) (now : U32) : Account :=
  let b := match f.lubeSlot with
    | some slot => a.addLube slot f.net.toNat
    | none =>
      { a with totalFuel := a.totalFuel + f.net,
               hoursAccounted := a.hoursAccounted + BitVec.ofNat 32 f.dhUsed,
               rate := f.rate <|> a.rate,
               lastHours := if f.net = 0 ∨ f.hours = 0 then a.lastHours
                            else laterHours a.lastHours f.hours }
  { b with fillCount := f.fillCount, source := .summary, lastUsed := now }

/-- R80, R81: a summary that passed R79. -/
def State.applySummary (s : State) (f : SummaryFields) : State :=
  match s.accounts.find f.machineId with
  | some (p, a) =>
    if f.fillCount ≤ a.fillCount then
      s.modAccounts fun t => { t with conflicts := sat16 t.conflicts }
    else
      s.modAccounts fun t =>
        t.set p { a.addSummary f s.clock with stale := decide (a.fillCount + 1 < f.fillCount) }
  | none =>
    let r := (Account.fresh f.machineId .support (s.fuelDefault .support) s.lubeDefaults .summary
      s.clock (s.visitUses f.machineId)).addSummary f s.clock
    (s.modAccounts fun t =>
      t.create
        { r with hoursAccounted := BitVec.ofNat 32 f.dhUsed, rate := f.rate,
                 stale := decide (f.fillCount ≠ 1) }).findPosition

/-! ## Replies (R69, R189) -/

/-- R189: part 1 of a reply as an account record; lube totals wait for part 2. -/
def replyAccount (p : List Byte) (now : U32) (inUse : Bool) : Account :=
  { machineId := u32At p 1, cls := classOf ((u8At p 5).toNat % 4), fuelCap := (u16At p 6).toNat,
    lubeCap := #v[(u16At p 8).toNat, (u16At p 10).toNat, (u16At p 12).toNat],
    lastHours := optU32 (u32At p 14), rate := optU32 (u32At p 18),
    fillCount := (u16At p 22).toNat, totalFuel := u32At p 24, hoursAccounted := u32At p 28,
    lubeTotals := Vector.replicate 3 0, lubeRes := Vector.replicate 3 0, source := .reply,
    stale := true, lastUsed := now, inUse := inUse }

/-- R69: a late reply. -/
def State.lateReply (s : State) : State :=
  s.modAccounts fun t => { t with lateReplies := sat16 t.lateReplies }

/-- R69, R189: part 1 of a reply for the visit's machine, taken in the window: adopted or
dropped. -/
def State.replyPart1 (s : State) (from_ : Station) (p : List Byte) : State :=
  let a := replyAccount p s.clock true
  let note : ReplyNote :=
    { station := from_, fillCount := a.fillCount, stale := (u8At p 5).getLsbD 7 }
  match s.accounts.find a.machineId with
  | none =>
    ((s.modAccounts fun t => t.create a).findPosition).modVisit fun v => { v with note := some note }
  | some (pos, old) =>
    if old.fillCount < a.fillCount then
      (s.modAccounts fun t => t.set pos { a with inUse := old.inUse }).modVisit fun v =>
        { v with note := some note }
    else s

/-- R75, R189: part 2 of a reply in the window: taken when it meets the note, the record and the
visit; the record is last used now. -/
def State.replyPart2 (s : State) (from_ : Station) (p : List Byte) : State :=
  match s.visit.note, s.accounts.find (u32At p 1) with
  | some n, some (pos, a) =>
    if n.station = from_ ∧ n.fillCount = (u16At p 5).toNat ∧ a.fillCount = (u16At p 5).toNat then
      (s.modAccounts fun t => t.set pos
        { a with lubeTotals := #v[u32At p 7, u32At p 11, u32At p 15],
                 lubeRes := #v[(u16At p 19).toNat, (u16At p 21).toNat, (u16At p 23).toNat],
                 stale := n.stale, lastUsed := s.clock }).modVisit fun v => { v with note := none }
    else s
  | _, _ => s

/-- R69, R189: a reply taken from a station. A part of another number than 1 or 2, or with the
length of the other part, is dropped. -/
def State.applyReply (s : State) (from_ : Station) (p : List Byte) : State :=
  if s.visit.state = .querying then
    if s.visit.machineId = some (u32At p 1) then
      if u8At p 0 = 1 ∧ p.length = 32 then s.replyPart1 from_ p
      else if u8At p 0 = 2 ∧ p.length = 25 then s.replyPart2 from_ p
      else s
    else if u8At p 0 = 2 then s
    else s.lateReply
  else s.lateReply

/-! ## Allowance (R82 to R84) -/

/-- R82, row 3: what the machine should have burned, with its margins. -/
def expectedAllowance (est d margin fixed : Nat) : Nat :=
  est * d / 10 * (100 + margin) / 100 + fixed

/-- R82: the base allowance of a diesel hose; class and capacity are the visit's. -/
def dieselBase (rules : RulesCfg) (priority : Bool) (capacity : Nat) (a : Option Account)
    (hNow : Option Nat) : Nat :=
  let full := capacity * 1000
  let est := a.bind Account.rate
  let last := a.bind Account.lastHours
  Nat.min full
    (if priority then full
     else
       match est, last with
       | some e, some l =>
         match hNow with
         | none => rules.topUp.toNat
         | some h =>
           if h ≤ l then rules.topUp.toNat
           else expectedAllowance e (h - l) rules.margin.toNat rules.fixedMargin.toNat
       | _, _ => full)

/-- R84: the stock clamp on a base; `none` is a refusal with RESERVE. -/
def clampStock (v : TankView) (c : TankCfg) (priority : Bool) (base : Nat) : Option Nat :=
  match v.stock with
  | none => none
  | some st =>
    if v.state = .lowLow then none
    else
      let most := if priority then st.litres * 1000 else (st.litres - c.reserveUsed) * 1000
      let x := Nat.min base most
      if x = 0 then none else some x

/-- R82 to R84: the allowance of a hose of the visit; `override` is the OVERRIDE option. -/
def State.allowance (s : State) (h : Hose) (override : Bool) : Option Nat :=
  match tankOf (s.hoseCfg h).tank with
  | none => none
  | some t =>
    let a := s.visit.position.bind s.accounts.at?
    let priority := s.visit.cls == some .priority
    let capacity := s.visit.fuelCap.getD 0
    let base :=
      if s.isLube (s.hoseCfg h).product then
        match lubeSlotOf (s.hoseCfg h).lubeSlot, s.visit.lubeCap with
        | some slot, some caps => caps[slot] * 1000
        | _, _ => 0
      else if override then capacity * 1000
      else dieselBase s.cfg.data.rules priority capacity a s.visit.hours
    clampStock s.views[t] (s.tankCfg t) priority base

end Sys2Proof.Machine
end

