-- ==== Sys2Proof/Machine/FillOps.lean ====
section
/-! DEFINITION. The fill controller's shared steps: starting (R24, R26), holds (R33, R34), ends
(R37 to R39), closing (R42), and what a disarm or a record's completion leaves. -/

namespace Sys2Proof.Machine

/-- A fill of kind FILL on hose 0 without MANUAL flag whose visit has a tag identity: the one the
tag reports reach (R24, R33, R40). -/
def State.tagGoverns (s : State) (h : Hose) : Bool :=
  h == 0 && (s.fill h).kind == some .fill && !(s.fill h).flags.manual && s.visit.tagId.isSome

/-- R24, R56: the tag interface is READY, its last report CONFIRMED, with the visit's machine
id. -/
def State.tagConfirmed (s : State) : Bool :=
  s.tag.act == .ready && s.tag.lastReport == some .confirmed &&
    (match s.tag.block with
     | none => false
     | some b => s.visit.machineId == some b.machineId)

/-- R24: the tag condition of a fill. -/
def State.tagCondition (s : State) (h : Hose) : Bool := !s.tagGoverns h || s.tagConfirmed

/-- R24: the pump conditions of a fill on a tank. -/
def State.pumpCondition (s : State) (t : Tank) : Bool :=
  s.views[t].pump.isRunning && !s.homeSilent t

/-- R24: a fill in STARTING may flow. -/
def State.mayFlow (s : State) (h : Hose) : Bool :=
  (s.fill h).state == .starting && (s.fill h).holds.isEmpty && s.tagCondition h &&
    (match (s.fill h).tank with
     | none => false
     | some t => s.pumpCondition t)

/-! ## The no-flow timer (R32) -/

/-- R32: the timer runs in FLOWING and SLOWING with the valve released and the command at or above
the minimum opening; it starts at full length and is left running. -/
def noFlowTimer (f : Fill) (minimum full : Nat) : Timer :=
  if f.dispensing && f.released && decide (minimum ≤ f.valveCmd) then
    match f.noFlowT with
    | none => some full
    | some n => some n
  else none

/-- R32: the no-flow time of a hose, ms. -/
def State.noFlowMs (s : State) (h : Hose) : Nat := (s.hoseCfg h).noFlow.toNat * 1000

/-- R32 for one hose, as its state and command stand. -/
def State.syncNoFlow (s : State) (h : Hose) : State :=
  s.modFill h fun f => { f with noFlowT := noFlowTimer f (s.minOpening h) (s.noFlowMs h) }

/-! ## Checkpoints (R44) -/

/-- R44: what a checkpoint of the fill carries as it stands. -/
def Fill.checkpoint (f : Fill) (t : Tank) : Checkpoint :=
  { seq := f.seq.getD 0, tank := t, product := f.product.getD 0, machine := f.machine,
    preset := f.preset.getD 0, net := f.net, gross := f.gross, startTime := f.startTime.getD 0,
    flags := f.flags }

/-- R44: a checkpoint of the fill on a hose is queued. -/
def State.checkpointFill (s : State) (h : Hose) (entry : Bool) : State :=
  match (s.fill h).tank with
  | none => s
  | some t => s.offerCheckpoint h entry ((s.fill h).checkpoint t)

/-! ## Entering FLOWING (R26) -/

/-- The remaining volume, signed (R31). -/
def Fill.remaining (f : Fill) : Int := (f.preset.getD 0 : Int) - (f.net : Int)

/-- R26, R34: FLOWING, or SLOWING with the remaining volume at or below the slow-down volume. -/
def flowState (remaining : Int) (slowDown : Nat) : FillState :=
  if (slowDown : Int) < remaining then .flowing else .slowing

/-- R26: the entry to FLOWING or SLOWING from STARTING. -/
def State.enterFlowing (s : State) (h : Hose) : State :=
  let st := flowState ((s.fill h).preset.getD 0 : Int) (s.hoseCfg h).slowDown.toNat
  let s := s.modFill h fun f =>
    { f with state := st, seq := some s.nv.nextSeq, gross := 0, net := 0, grossRes := 0,
             netRes := 0, tempSum := 0, startTime := some s.clock,
             nextMark := some Config.checkpointStep, released := false,
             rampTarget := s.valveTarget h st, startT := none }
  let s := s.modNv fun n => { n with nextSeq := n.nextSeq + 1 }
  (s.checkpointFill h true).syncNoFlow h

/-- R24: a fill in STARTING whose conditions hold enters FLOWING. -/
def State.tryStart (s : State) (h : Hose) : State :=
  if s.mayFlow h then s.enterFlowing h else s

/-! ## Holds (R33, R34) -/

/-- R33: a member enters the set. -/
def HoldSet.add (x : HoldSet) : HoldCause → HoldSet
  | .pumpLost => { x with pumpLost := true }
  | .homeSilent => { x with homeSilent := true }
  | .tagLost => { x with tagLost := true }
  | .operator => { x with operator := true }

/-- R33: a member leaves the set. -/
def HoldSet.remove (x : HoldSet) : HoldCause → HoldSet
  | .pumpLost => { x with pumpLost := false }
  | .homeSilent => { x with homeSilent := false }
  | .tagLost => { x with tagLost := false }
  | .operator => { x with operator := false }

/-- R34: the tag-loss timer when a member enters the set. -/
def tagLossOnEntry (f : Fill) : HoldCause → Timer
  | .tagLost => if f.holds.tagLost then f.tagLossT else some Config.tagLossMs
  | _ => f.tagLossT

/-- R24, R33, R34: a member enters the hold cause set of a fill: FLOWING and SLOWING enter HELD,
STARTING takes TAG_LOST only, the other states keep no set. -/
def State.enterHold (s : State) (h : Hose) (c : HoldCause) : State :=
  if (s.fill h).dispensing then
    s.modFill h fun f =>
      { f with state := .held, holds := f.holds.add c, rampTarget := 0, noFlowT := none,
               holdT := some Config.holdMs, tagLossT := tagLossOnEntry f c }
  else if (s.fill h).state = .held then
    s.modFill h fun f => { f with holds := f.holds.add c, tagLossT := tagLossOnEntry f c }
  else if (s.fill h).state = .starting ∧ c = .tagLost then
    s.modFill h fun f => { f with holds := f.holds.add c }
  else s

/-- R34: a fill in HELD with an empty set resumes. -/
def State.resume (s : State) (h : Hose) : State :=
  let st := flowState (s.fill h).remaining (s.hoseCfg h).slowDown.toNat
  (s.modFill h fun f =>
    { f with state := st, rampTarget := s.valveTarget h st, holdT := none, tagLossT := none }
  ).syncNoFlow h

/-- R33, R34: a member leaves the hold cause set of a fill in HELD, which resumes when the set is
empty; in STARTING TAG_LOST leaves. -/
def State.leaveHold (s : State) (h : Hose) (c : HoldCause) : State :=
  if (s.fill h).state = .held then
    let s := s.modFill h fun f =>
      { f with holds := f.holds.remove c,
               tagLossT := if c = .tagLost then none else f.tagLossT }
    if (s.fill h).holds.isEmpty then s.resume h else s
  else if (s.fill h).state = .starting ∧ c = .tagLost then
    s.modFill h fun f => { f with holds := f.holds.remove c }
  else s

/-! ## Ends (R30, R37, R38, R41) -/

/-- R30, R41: emergency close of a fill; in SETTLING the settle quiet timer starts if it does not
run. -/
def Fill.emergencyClose (f : Fill) : Fill :=
  { f with valveCmd := 0, rampTarget := 0,
           settleQuietT :=
             if f.state = .settling then f.settleQuietT <|> some Config.settleQuietMs
             else f.settleQuietT }

/-- R37: a running fill enters SETTLING with an end cause; the close is normal. -/
def Fill.settle (f : Fill) (c : EndCause) : Fill :=
  { f with state := .settling, endCause := some c, holds := HoldSet.empty, noFlowT := none,
           holdT := none, tagLossT := none, rampTarget := 0,
           settleLimitT := some Config.settleLimitMs,
           settleQuietT := if f.valveCmd = 0 then some Config.settleQuietMs else none }

/-- R37: the end conditions that close by emergency. -/
def EndCause.emergency : EndCause → Bool
  | .tagChanged => true
  | .shutdown => true
  | .hoseFault => true
  | .limit => true
  | _ => false

/-- R37, R41: an end condition reaches a fill that is running or settling. -/
def Fill.endBy (f : Fill) (c : EndCause) : Fill :=
  if f.running then if c.emergency then (f.settle c).emergencyClose else f.settle c
  else if f.state = .settling ∧ c.emergency then f.emergencyClose
  else f

/-- R23, R25: a fill returns to IDLE without a record. What R23 does not name is kept: the preset, tank,
product, machine fields and flags (log 60). -/
def Fill.disarm (f : Fill) (o : FillOutcome) : Fill :=
  { f with state := .idle, kind := none, holds := HoldSet.empty, armT := none, startT := none,
           lastOutcome := some o }

/-- The fill waits in ARMED or STARTING. -/
def Fill.waits (f : Fill) : Bool := f.state == .armed || f.state == .starting

/-- R23, R25: the fill on a hose returns to IDLE and its reservation is released. -/
def State.disarm (s : State) (h : Hose) (o : FillOutcome) : State :=
  (s.modFill h fun f => f.disarm o).modNv fun n => { n with reservations := n.reservations - 1 }

/-- R23, R25, R37, R38, R39: an end condition reaches the fill on a hose in any state. -/
def State.endFill (s : State) (h : Hose) (c : EndCause) : State :=
  if (s.fill h).waits then s.disarm h (.ended c) else s.modFill h fun f => f.endBy c

/-- R38: a shutdown reaches the fill on a hose; every valve command is 0 from then on. -/
def State.shutFill (s : State) (h : Hose) : State :=
  (s.endFill h .shutdown).modFill h fun f => { f with valveCmd := 0, rampTarget := 0 }

/-- R38: a shutdown reaches every fill. -/
def State.shutFills (s : State) : State := forHoses (fun h s => s.shutFill h) s

/-- R39: CONFIG_FAULT or CLOSE_LANE reaches every fill. -/
def State.endFills (s : State) (c : EndCause) : State := forHoses (fun h s => s.endFill h c) s

/-- R39, R73: the visit's end reaches a FILL-kind fill in ARMED or STARTING; a STARTING one returns to
IDLE also at DUPLICATE_TAG (R25, R73 over R67, log 49). -/
def State.visitEnds (s : State) (h : Hose) : State :=
  if (s.fill h).kind = some .fill ∧ (s.fill h).waits then s.disarm h .visitEnded else s

/-! ## Closing (R42) and the record's completion (R43) -/

/-- R42: the record of a closing fill; `avg` is its temperature average (R11). -/
def State.fillRecord (s : State) (h : Hose) (f : Fill) (t : Tank) (avg : Int)
    (credit : Option Credit) : Record :=
  { seq := f.seq.getD 0, kind := if f.kind = some .prover then .prover else .fill, hose := some h,
    tank := t, product := f.product.getD 0, lubeSlot := f.lubeSlot,
    machineId := f.machine.map MachineFields.machineId, cls := f.machine.bind MachineFields.cls,
    hours := (match f.machine with
      | none => none
      | some _ => s.visit.hours),
    preset := f.preset, net := f.net, gross := some f.gross,
    tempAvg := some avg, startTime := f.startTime.getD 0,
    endTime := f.endTime.getD 0, endCause := f.endCause, credit := credit,
    flags := { fill := f.flags, negative := false, startDegraded := false, endDegraded := false,
               overStrap := false },
    receipt := none, damaged := false }

/-- R9, R42: the fill closes: end time, residues and temperature sum discarded, timers stopped. -/
def Fill.close (f : Fill) (now : U32) : Fill :=
  { f with state := .closing, endTime := some now, grossRes := 0, netRes := 0,
           tempSum := 0, settleQuietT := none, settleLimitT := none }

/-- R42: a FILL-kind fill is credited, and takes the hours flags. -/
def State.creditHose (s : State) (h : Hose) : State × Option Credit :=
  if (s.fill h).kind = some .fill then
    let x := s.creditFill (s.fill h).net (s.fill h).lubeSlot
    (x.1.modFill h fun f =>
       { f with
         flags := { f.flags with
           hoursNotAdvanced := x.2.notAdvanced, hoursGap := x.2.gap } },
     some x.2.credit)
  else (s, none)

/-- R42: the entry to CLOSING; the temperature average is formed of the sum that the close
discards (R9, R11). -/
def State.enterClosing (s : State) (h : Hose) : State :=
  let avg := tempAverage (s.fill h).tempSum (s.fill h).gross
  let s := s.modFill h fun f => f.close s.clock
  let x := s.creditHose h
  match (x.1.fill h).tank with
  | none => x.1
  | some t => x.1.offerJob (.record (.fill h) (x.1.fillRecord h (x.1.fill h) t avg x.2))

/-- R43: the fill enters IDLE with its end cause as last outcome. -/
def Fill.recorded (f : Fill) : Fill :=
  { f with state := .idle, kind := none, lastOutcome := f.endCause.map FillOutcome.ended }

end Sys2Proof.Machine
end

