-- ==== Sys2Proof/Machine/PumpOps.lean ====
section
/-! DEFINITION. Pump views and what their change does to fills (R33, R114); the pump controller's
changes of state (R106 to R113) and its demand set (R104, R105). -/

namespace Sys2Proof.Machine

/-! ## Pump views -/

/-- Do `f` for every hose whose fill draws tank `t`. -/
def forFillsOn (t : Tank) (f : Hose → State → State) (s : State) : State :=
  forHoses (fun h s => if (s.fill h).tank = some t then f h s else s) s

/-- R33, R114: the pump view of a tank changes; PUMP_LOST enters or leaves the fills on it. -/
def State.setPumpView (s : State) (t : Tank) (v : PumpView) : State :=
  let was := s.views[t].pump.isRunning
  let s := s.modView t fun x => { x with pump := v }
  if was && !v.isRunning then forFillsOn t (fun h s => s.enterHold h .pumpLost) s
  else if !was && v.isRunning then forFillsOn t (fun h s => s.leaveHold h .pumpLost) s
  else s

/-- R114: a pump view that takes the state LOCKED_OUT sets the PUMP flag. -/
def PumpView.lockedOut : PumpView → Bool
  | .known .lockedOut _ => true
  | _ => false

/-! ## Controllers -/

/-- R104: the demand set is empty. -/
def Pump.noDemand (p : Pump) : Bool :=
  !p.own && (indices 16).all fun x => p.remote[x].isNone

/-- Section 6.1: the contactor is on in STARTING, RUNNING and RUN_ON. -/
def PumpState.contactor : PumpState → Bool
  | .starting => true
  | .running => true
  | .runOn => true
  | .stopped => false
  | .resting => false
  | .lockedOut => false

/-- R113: a controller's change of state, with its timers as `f` sets them: a PUMP frame is
offered and the own view follows. -/
def State.changePump (s : State) (t : Tank) (f : Pump → Pump) : State :=
  let s := s.modPump t f
  match s.pumps[t] with
  | none => s
  | some p =>
    (s.modLink fun l => l.offer (.pump t p.state p.reason)).setPumpView t (.known p.state p.reason)

/-- R106, R110: RESTING with the rest timer at 10 s, every other timer stopped; at the run-on's expiry
the pressure-loss timer too (log 54). -/
def Pump.rest (p : Pump) : Pump :=
  { p with state := .resting, reason := none, startT := none, lossT := none, runOnT := none,
           restT := some Config.restMs }

/-- R108, R109, R111, R112: LOCKED_OUT with a reason, every timer stopped; at PRESSURE_LOST the run-on
timer too (log 54). -/
def Pump.lock (p : Pump) (r : LockReason) : Pump :=
  { p with state := .lockedOut, reason := some r, startT := none, lossT := none, runOnT := none,
           restT := none, lockouts := sat16 p.lockouts }

/-- R108: STARTING. -/
def Pump.start (p : Pump) : Pump :=
  { p with state := .starting, restT := none, starts := sat16 p.starts,
           startT := some Config.pumpStartMs }

/-- R108, R109: RUNNING. -/
def Pump.run (p : Pump) : Pump := { p with state := .running, startT := none, runOnT := none }

/-- R109: RUN_ON. -/
def Pump.runOut (p : Pump) : Pump := { p with state := .runOn, runOnT := some Config.runOnMs }

/-- R107: STOPPED. -/
def Pump.stop (p : Pump) : Pump := { p with state := .stopped, restT := none }

/-- R106, R110: the controller enters RESTING. -/
def State.restPump (s : State) (t : Tank) : State := s.changePump t Pump.rest

/-- R112: the controller enters LOCKED_OUT; the PUMP flag is set. -/
def State.lockPump (s : State) (t : Tank) (r : LockReason) : State :=
  (s.changePump t fun p => p.lock r).raise .pump

/-- R108, R109: the start is confirmed: RUNNING, and RUN_ON at once with no demand. -/
def State.confirmPump (s : State) (t : Tank) : State :=
  let s := s.changePump t Pump.run
  match s.pumps[t] with
  | none => s
  | some p => if p.noDemand then s.changePump t Pump.runOut else s

/-- R108: the controller enters STARTING, confirmed at once with the pressure feedback on. -/
def State.startPump (s : State) (t : Tank) : State :=
  let s := s.changePump t Pump.start
  if s.pressure[t] then s.confirmPump t else s

/-- The stock state of a homed tank is LOW_LOW. -/
def State.homeLow (s : State) (t : Tank) : Bool :=
  match s.home[t] with
  | none => false
  | some u => u.stockState == .lowLow

/-- R107: the conditions besides demand that let a controller start. -/
def State.pumpAllowed (s : State) (t : Tank) : Bool :=
  !s.holdsBay && !s.link.dupStation && !s.homeLow t

/-- R107, R109: a controller tests its conditions at a change of its demand set, of the shutdown
or of the stock state. -/
def State.reactPump (s : State) (t : Tank) : State :=
  match s.pumps[t] with
  | none => s
  | some p =>
    match p.state with
    | .stopped => if !p.noDemand && s.pumpAllowed t then s.startPump t else s
    | .running => if p.noDemand then s.changePump t Pump.runOut else s
    | .runOn => if p.noDemand then s else s.changePump t Pump.run
    | .starting => s
    | .resting => s
    | .lockedOut => s

/-- R107: the rest ends: STOPPED, and STARTING in the same step when the conditions hold. -/
def State.endRest (s : State) (t : Tank) : State := (s.changePump t Pump.stop).reactPump t

/-- R110: a bay shutdown or DUPLICATE_STATION reaches one controller. -/
def State.forcePump (s : State) (t : Tank) : State :=
  match s.pumps[t] with
  | none => s
  | some p => if p.state.contactor then s.restPump t else s

/-- R110: a bay shutdown or DUPLICATE_STATION reaches every controller. -/
def State.forcePumps (s : State) : State := forTanks (fun t s => s.forcePump t) s

/-- R110: the condition ended: every controller tests its conditions. -/
def State.releasePumps (s : State) : State := forTanks (fun t s => s.reactPump t) s

/-- R111: the stock state of a homed tank changed; `low` says whether it is LOW_LOW now. -/
def State.stockMovesPump (s : State) (t : Tank) (low : Bool) : State :=
  match s.pumps[t] with
  | none => s
  | some p =>
    if low then if p.state = .lockedOut then s else s.lockPump t .dryRun
    else if p.state = .lockedOut ∧ p.reason = some .dryRun then s.restPump t
    else s.reactPump t

/-! ## The demand set -/

/-- R104: the own member of a controller's demand set follows the station's demand. -/
def State.syncDemand (s : State) (t : Tank) : State :=
  match s.pumps[t] with
  | none => s
  | some p =>
    if p.own = s.demandsTank t then s
    else (s.modPump t fun p => { p with own := s.demandsTank t }).reactPump t

/-- R104: the own demand of every homed tank. -/
def State.syncDemands (s : State) : State := forTanks (fun t s => s.syncDemand t) s

/-- R104, R105: a remote member leaves the set, if it is in it. -/
def State.dropDemand (s : State) (t : Tank) (p : Station) : State :=
  match s.pumps[t] with
  | none => s
  | some x =>
    if x.remote[p].isNone then s
    else (s.modPump t fun x => { x with remote := put x.remote p none }).reactPump t

/-- R104: a remote member enters the set or stays, its timer starting again. -/
def State.takeDemand (s : State) (t : Tank) (p : Station) : State :=
  (s.modPump t fun x => { x with remote := put x.remote p (some Config.demandMs) }).reactPump t

end Sys2Proof.Machine
end

