-- ==== Sys2Proof/Machine/TankOps.lean ====
section
/-! DEFINITION. Home tank units and tank views: samples (R86 to R90), GAUGE frames (R91, R93),
draws (R94, R95, R98), reconciliation (R98 to R100) and receipts (R101, R102). -/

namespace Sys2Proof.Machine

/-! ## Stock states (R89, R90) -/

/-- R90: the hysteresis of a tank, L. -/
def TankCfg.hysteresis (c : TankCfg) : Nat := c.capacity.toNat / 100

/-- R89: the stock state derived from the gauged value alone. -/
def stockFresh (c : TankCfg) (g : Nat) : StockState :=
  if g ≤ c.lowLowUsed then .lowLow else if g ≤ c.reserveUsed then .reserve else .normal

/-- R90: the stock state with hysteresis. -/
def stockNext (c : TankCfg) (st : StockState) (g : Nat) : StockState :=
  match st with
  | .normal => stockFresh c g
  | .reserve =>
    if g ≤ c.lowLowUsed then .lowLow
    else if c.reserveUsed + c.hysteresis < g then .normal
    else .reserve
  | .lowLow =>
    if c.reserveUsed + c.hysteresis < g then .normal
    else if c.lowLowUsed + c.hysteresis < g then .reserve
    else .lowLow
  | .gaugeFault => stockFresh c g

/-- R95: the stock state of a view lowered to `l` litres. A view that stands at or below
a threshold already takes the lower state at any draw (log 48). -/
def stockLowered (c : TankCfg) (st : StockState) (l : Nat) : StockState :=
  match st with
  | .normal => stockFresh c l
  | .reserve => if l ≤ c.lowLowUsed then .lowLow else .reserve
  | .gaugeFault => if l ≤ c.lowLowUsed then .lowLow else .gaugeFault
  | .lowLow => .lowLow

/-! ## Litres with a remainder (R89, R95, R98) -/

/-- `d` mL drawn from a stock of litres less a remainder; it stops at 0. -/
def drawStock (litres ml d : Nat) : Nat × Nat :=
  let l := (ml + d) / 1000
  if litres < l then (0, 0) else (litres - l, (ml + d) % 1000)

/-- R98: `d` mL drawn from a book stock, which is signed. -/
def Book.draw (b : Book) (d : Nat) : Book :=
  { litres := b.litres - ((b.ml + d) / 1000 : Nat), ml := (b.ml + d) % 1000 }

/-- R98: a rebase. -/
def HomeUnit.rebase (u : HomeUnit) : HomeUnit :=
  { u with book := u.gauged.map fun g => { litres := g.litres, ml := g.ml },
           throughput := 0, throughputMl := 0 }

/-- R89, R95, R98: `d` mL drawn at the home unit: book, throughput, a degraded gauged value and
its stock state, the receipt. With `thresholds` false the stock state is not derived. A held value
that stands at or below the low-low volume makes the state LOW_LOW at any draw (log 48). -/
def HomeUnit.draw (u : HomeUnit) (thresholds : Bool) (d : Nat) : HomeUnit :=
  let gauged := u.gauged.map fun g =>
    if u.fault then
      { g with litres := (drawStock g.litres g.ml d).1, ml := (drawStock g.litres g.ml d).2 }
    else g
  { u with
    book := u.book.map fun b => b.draw d,
    throughput :=
      if u.book.isSome then u.throughput + BitVec.ofNat 32 ((u.throughputMl + d) / 1000)
      else u.throughput,
    throughputMl := if u.book.isSome then (u.throughputMl + d) % 1000 else u.throughputMl,
    gauged := gauged,
    stockState :=
      (match gauged with
       | none => u.stockState
       | some g => if u.fault && thresholds && decide (g.litres ≤ u.cfg.lowLowUsed) then .lowLow
                   else u.stockState),
    receipt := u.receipt.map fun r => { r with draws := r.draws + d } }

/-! ## GAUGE frames (R91, R93) -/

/-- R93: the contents of a GAUGE frame set a view. -/
def TankView.apply (v : TankView) (g : GaugeFields) (now : U32) : TankView :=
  { v with
    stock := g.gauged.map fun l => { litres := l, ml := 0 },
    state := if g.gauged.isNone then .gaugeFault else g.state,
    degraded := g.degraded, noValue := g.gauged.isNone,
    lastGauge := some
      { level := if g.gauged.isNone then 0 else g.level, recon := g.recon,
        receipt := g.recon == .receiving, overStrap := g.overStrap, tempDefault := g.tempDefault,
        arrived := now } }

/-- R93: a view changes; a change of its stock state sets the STOCK flag. -/
def State.changeView (s : State) (t : Tank) (f : TankView → TankView) : State :=
  let before := s.views[t].state
  let s := s.modView t f
  s.raiseIf (s.views[t].state != before) .stock

/-- R91: a GAUGE frame of a homed tank is offered, its own view set, the 10 s period restarted.
Nothing with the TANKS section invalid. -/
def State.offerGauge (s : State) (t : Tank) : State :=
  match s.home[t] with
  | none => s
  | some u =>
    if s.sectionValid .tanks then
      let s := s.modLink fun l => l.offer (.gauge t u.gaugeFields)
      let s := s.changeView t fun v => v.apply u.gaugeFields s.clock
      s.modHome t fun u => { u with gaugeT := some Config.gaugeMs, offered := true }
    else s

/-- R91: the change of a home unit is one a GAUGE frame tells early. The end of a gauge fault that leaves
the stock state and the reconciliation state as they were is no such change (log 71). -/
def gaugeTells (a b : HomeUnit) : Bool := a.stockState != b.stockState || a.recon != b.recon

/-- R90, R91, R99, R111: a home unit takes its new state: the STOCK flag, an early GAUGE frame and
the pump follow its changes; `due` offers a frame without a change. -/
def State.commitHome (s : State) (t : Tank) (u : HomeUnit) (due : Bool) : State :=
  match s.home[t] with
  | none => s
  | some old =>
    let s := s.modHome t fun _ => u
    let s := s.raiseIf (gaugeTells old u) .stock
    let s := if gaugeTells old u || due then s.offerGauge t else s
    if old.stockState = u.stockState then s else s.stockMovesPump t (u.stockState == .lowLow)

/-! ## Samples (R86 to R90, R100) -/

/-- R86: the level of a valid sample, in mm. -/
def levelOf : Reading → Option Nat
  | .value v => if 0 ≤ v ∧ v ≤ Config.levelMax then some v.toNat else none
  | .openLine => none
  | .shorted => none

/-- R88: the gauged value from gross volume, α and temperature. It has no bound here, though a strapping
gross volume can take it beyond the 2,000,000 L of a stock and beyond four bytes (log 86). -/
def gaugedValue (gross alpha : Nat) (t10 : Int) : Nat := gross * tempFactor alpha t10 / 1000000

/-- R98, R100: what the valid sample that is the first or ends a gauge fault does to book and
reconciliation. -/
def HomeUnit.resumeRecon (u : HomeUnit) : HomeUnit :=
  match u.recon with
  | .suspended => { u.rebase with recon := .balanced, lossRun := 0 }
  | .lossAlarm => u.rebase
  | .receiving => u
  | .balanced => u
  | .watch => u

/-- R86 to R90: a valid sample at a level. -/
def HomeUnit.validSample (u : HomeUnit) (alpha level : Nat) (temp : Reading) : HomeUnit :=
  let x := strapVolume u.cfg.points level
  let t := tempOf temp
  let g := gaugedValue x.1 alpha t.1
  let fresh := u.fault || u.gauged.isNone
  let u' : HomeUnit :=
    { u with level := some level, gross := some x.1, overStrap := x.2, t10 := t.1,
             tempStatus := t.2, invalidRun := 0, fault := false,
             gauged := some { litres := g, ml := 0, degraded := false },
             stockState := if fresh then stockFresh u.cfg g else stockNext u.cfg u.stockState g }
  if fresh then u'.resumeRecon else u'

/-- R89, R100: the gauge fault begins. The stock state is GAUGE_FAULT also where the held value
stands at or below the low-low volume already (log 48). -/
def HomeUnit.beginFault (u : HomeUnit) : HomeUnit :=
  let suspends := u.recon == .balanced || u.recon == .watch
  { u with fault := true, gauged := u.gauged.map fun g => { g with degraded := true },
           stockState := .gaugeFault,
           recon := if suspends then .suspended else u.recon,
           lossRun := if suspends then 0 else u.lossRun }

/-- R86, R89: an invalid sample; the third in a row begins the gauge fault. -/
def HomeUnit.invalidSample (u : HomeUnit) : HomeUnit :=
  let run := Nat.min (u.invalidRun + 1) 3
  let u' := { u with invalidRun := run }
  if run = 3 ∧ u.fault = false then u'.beginFault else u'

/-- R85, R86: a sample is taken, with the working values from here on. -/
def HomeUnit.sample (u : HomeUnit) (c : TankCfg) (alpha : Nat) (level temp : Reading) : HomeUnit :=
  let u := { u with cfg := c }
  match levelOf level with
  | some l => if strapUsable c.points then u.validSample alpha l temp else u.invalidSample
  | none => u.invalidSample

/-- R91: a sample at which a GAUGE frame is due without a change: the first valid one, and the
third invalid one, when none has been offered. -/
def HomeUnit.firstFrame (u : HomeUnit) : Bool :=
  !u.offered && (u.invalidRun == 0 || u.invalidRun == 3)

/-! ## Reconciliation (R99) and receipts (R101, R102) -/

/-- R99: the loss limit, L. -/
def HomeUnit.lossLimit (u : HomeUnit) : Nat :=
  u.cfg.lossThreshold.toNat + u.cfg.lossProportion.toNat * u.throughput.toNat / 1000

/-- R99: one evaluation. -/
def HomeUnit.evaluate (u : HomeUnit) : HomeUnit :=
  match u.gauged, u.book with
  | some g, some b =>
    let v : Int := (g.litres : Int) - b.litres
    let loss := decide (v < -(u.lossLimit : Int))
    (match u.recon with
     | .receiving => u
     | .suspended => u
     | .lossAlarm => { u with variance := v }
     | .balanced =>
       { u with variance := v, recon := if loss then .watch else .balanced,
                lossRun := if loss then 1 else 0 }
     | .watch =>
       { u with variance := v,
                recon := if !loss then .balanced else if 2 ≤ u.lossRun then .lossAlarm else .watch,
                lossRun := if loss then u.lossRun + 1 else 0 })
  | _, _ => u

/-- R100: a tank in LOSS_ALARM leaves it by an accepted restore. -/
def HomeUnit.restore (u : HomeUnit) : HomeUnit :=
  if u.recon = .lossAlarm then
    { u.rebase with recon := if u.fault then .suspended else .balanced, lossRun := 0 }
  else u

/-- R101: a receipt opens. -/
def HomeUnit.beginReceipt (u : HomeUnit) (now : U32) : HomeUnit :=
  { u with
    recon := .receiving, lossRun := 0,
    receipt := some
      { startGauged := (u.gauged.map Gauged.litres).getD 0,
        startDegraded := (u.gauged.map Gauged.degraded).getD false,
        startOverStrap := u.overStrap, startTempDefault := u.tempStatus == .default,
        startLevel := u.level.getD 0, startTime := now, draws := 0 } }

/-- R102: the volume received, mL, signed. It and the draws it counts are not bounded here; the reply and
the record carry them modulo 2^32 (log 72). -/
def Receipt.received (r : Receipt) (endGauged : Nat) : Int :=
  ((endGauged : Int) - (r.startGauged : Int)) * 1000 + (r.draws : Int)

/-- R102: the record of a receipt; the product is that of the unit's working values (log 55). -/
def HomeUnit.receiptRecord (u : HomeUnit) (t : Tank) (r : Receipt) (now : U32) : Record :=
  let endGauged := (u.gauged.map Gauged.litres).getD 0
  { seq := 0, kind := .receipt, hose := none, tank := t, product := u.cfg.product,
    lubeSlot := none, machineId := none, cls := none, hours := none, preset := none, net := 0,
    gross := none, tempAvg := none, startTime := r.startTime, endTime := now, endCause := none, credit := none,
    flags :=
      { fill :=
          { FillFlags.clear with
            tempDefault := r.startTempDefault || u.tempStatus == .default },
        negative := decide (r.received endGauged < 0), startDegraded := r.startDegraded,
        endDegraded := (u.gauged.map Gauged.degraded).getD false,
        overStrap := r.startOverStrap || u.overStrap },
    receipt := some
      { startGauged := r.startGauged, endGauged := endGauged, startLevel := r.startLevel,
        endLevel := u.level.getD 0, draws := r.draws, received := r.received endGauged },
    damaged := false }

/-- R102: the receipt context closes and the book is rebased. -/
def HomeUnit.endReceipt (u : HomeUnit) : HomeUnit :=
  { u.rebase with receipt := none, recon := if u.fault then .suspended else .balanced }

/-! ## Draws (R94, R95) -/

/-- R95: a view lowered by `d` mL. -/
def TankView.draw (v : TankView) (c : TankCfg) (thresholds : Bool) (d : Nat) : TankView :=
  match v.stock with
  | none => v
  | some st =>
    let x := drawStock st.litres st.ml d
    { v with stock := some { litres := x.1, ml := x.2 },
             state := if thresholds then stockLowered c v.state x.1 else v.state }

/-- R85, R95: the thresholds of a tank's view: at its home station those of the home unit, else those
of the working copy (log 55). -/
def State.viewCfg (s : State) (t : Tank) : TankCfg :=
  match s.home[t] with
  | none => s.tankCfg t
  | some u => u.cfg

/-- R95: `d` mL are drawn from tank `t`: its view, its home unit, its receipt. -/
def State.drawTank (s : State) (t : Tank) (d : Nat) : State :=
  let valid := s.sectionValid .tanks
  let s := s.changeView t fun v => v.draw (s.viewCfg t) valid d
  match s.home[t] with
  | none => s
  | some u => s.commitHome t (u.draw valid d) false

/-- R94: the change from a last total to a total, read as signed. -/
def drawDelta (last total : U32) : Int := (total - last).toInt

/-- R94: the effect of a total against the last one held, whoever sent it. -/
def State.judgeTotal (s : State) (t : Tank) (last : Option U32) (total : U32) (changed : Bool) :
    State :=
  match last with
  | none => s
  | some p =>
    if 0 < drawDelta p total then s.drawTank t (drawDelta p total).toNat
    else if drawDelta p total < 0 ∧ changed = false then
      (s.modView t fun v => { v with anomalies := sat16 v.anomalies }).raise .stock
    else s

/-- R94: a draw entry of a beacon of station `p`. -/
def State.takeTotal (s : State) (p : Station) (t : Tank) (total : U32) (changed : Bool) : State :=
  let last := s.views[t].lastTotals[p]
  (s.judgeTotal t last total changed).modView t fun v =>
    { v with lastTotals := put v.lastTotals p (some total) }

/-- R96: the own epoch against the entry of the own number, which another station may have had before
a reload gave the number to this one. -/
def State.ownEpochChanged (s : State) (p : Station) : Bool :=
  s.link.peers[p].heard && s.link.peers[p].epoch != some s.link.epoch

/-- R96: the station's own draw total of a tank, as from its own number with its own epoch; with no
number taken up it is judged against the own last total (log 6). -/
def State.takeOwnTotal (s : State) (t : Tank) (total : U32) : State :=
  match s.link.number with
  | some p => s.takeTotal p t total (s.ownEpochChanged p)
  | none =>
    (s.judgeTotal t s.views[t].ownTotal total false).modView t fun v =>
      { v with ownTotal := some total }

end Sys2Proof.Machine
end

