-- ==== Sys2Proof/Machine/BeaconOps.lean ====
section
/-! DEFINITION. Beacons (R140, R141) and the close of an event: what follows at the event at which
its condition comes to hold, whichever block caused it. -/

namespace Sys2Proof.Machine

/-- R187: OPEN 1, CLOSED 2. -/
def laneCode (closed : Bool) : Nat := if closed then 2 else 1

/-- R141: the fields of a beacon formed now; the rejoined flag is set at sending, and READ_PEER goes on
showing the own beacon with 0 (log 66). -/
def State.beaconFields (s : State) : BeaconFields :=
  { lane := laneCode s.laneClosed, visit := s.visit.state.code, spill := s.shut.origin.isSome,
    laneShut := s.shut.latch, configFault := s.cfg.fault, rejoined := false, epoch := s.link.epoch,
    machineId := s.visitField, demand := s.demandMask,
    draws := s.drawnTanks.map fun t => (BitVec.ofNat 8 (tankNo t), s.drawTotal t) }

/-- R96: the own draw totals are taken into the own views. -/
def State.takeOwnTotals (s : State) (l : List (Tank × U32)) : State :=
  l.foldl (fun s e => s.takeOwnTotal e.1 e.2) s

/-- R140: a beacon is formed: own totals taken, the period restarted, the beacon offered while the
STATION section is valid. -/
def State.formBeacon (s : State) : State :=
  let b := s.beaconFields
  let s := s.takeOwnTotals (s.drawnTanks.map fun t => (t, s.drawTotal t))
  let s := s.modLink fun l => { l with ownBeacon := some b, beaconT := some Config.beaconMs }
  if s.sectionValid .station then s.modLink fun l => l.offer (.beacon b) else s

/-- R140: the items whose change causes an early beacon. -/
def State.beaconKey (s : State) : Byte × Bool × U32 × Bool :=
  (s.demandMask, s.shut.origin.isSome, s.visitField, s.laneClosed)

/-- R140: an early beacon when the event that started in `before` changed one of the items; none
before the first beacon (R186). -/
def State.earlyBeacon (before s : State) : State :=
  if s.started && s.beaconKey != before.beaconKey then s.formBeacon else s

/-! ## The close of an event -/

/-- R24: every fill in STARTING tests its conditions, hose 0 first. -/
def State.startFills (s : State) : State := forHoses (fun h s => s.tryStart h) s

/-- R73: the visit returns to NONE. -/
def State.visitToNone (s : State) : State :=
  let s := match s.visit.position with
    | none => s
    | some p =>
      match s.accounts.at? p with
      | none => s
      | some a => s.modAccounts fun t => t.set p { a with inUse := false }
  ({ s with visit := { Visit.reset with lastOutcome := s.visit.lastOutcome } }).raise .visit

/-- R72, R73: an ENDING visit without fills returns to NONE; the idle timer of an OPEN one runs
while no FILL-kind fill is beyond IDLE. -/
def State.followVisit (s : State) : State :=
  match s.visit.state with
  | .ending => if s.noVisitFill then s.visitToNone else s
  | .opened =>
    s.modVisit fun v =>
      { v with idleT := if s.noVisitFill then v.idleT <|> some Config.visitIdleMs else none }
  | .none => s
  | .identifying => s
  | .querying => s

/-- R183: a pending close is done when every fill is IDLE. -/
def State.followLane (s : State) : State :=
  if s.closePending && s.allIdle then { s with laneClosed := true, closePending := false } else s

/-- R171: a pending automatic reload is taken when every fill is IDLE. -/
def State.followReload (s : State) : State :=
  if s.cfg.reloadPending && s.allIdle && s.cfg.loading.isNone then
    s.modCfg fun c => { c with reloadPending := false, loading := some .automatic }
  else s

/-- The close of an event that started in `before`: demand sets (R104), starts (R24), the visit
(R72, R73), the lane (R183), the automatic reload (R171), creep records (R17, R160), the early
beacon (R140), the transmit queue (R142, R144), in this order (log 15). -/
def State.settle (s before : State) : State :=
  let s := s.syncDemands.startFills.followVisit.followLane.followReload.offerCreep
  (State.earlyBeacon before s).tidyQueue

/-- An event with the effect `f` and its close. -/
def State.event (f : State → State) (s : State) : State := (f s).settle s

end Sys2Proof.Machine
end

