-- ==== Sys2Proof/Machine/ShutdownOps.lean ====
section
/-! DEFINITION. The shutdown unit's shared steps: the source set and what a bay shutdown begins
and ends (R131), the own origin (R123, R124), hose faults (R119), the lane shutdown (R121),
DUPLICATE_STATION (R151), and the visit's ends (R73, R74). -/

namespace Sys2Proof.Machine

/-- R38, R110: what the beginning of a bay shutdown or of DUPLICATE_STATION does: pumps to
RESTING, every fill ended. -/
def State.stopAll (s : State) : State := s.forcePumps.shutFills

/-- R131: a change of the source set; from empty to non-empty it begins a bay shutdown, the
other way it ends it. -/
def State.changeSources (s : State) (f : State → State) : State :=
  let s' := f s
  if !s.holdsBay && s'.holdsBay then
    ((s'.modShut fun u => { u with bayShutdowns := sat16 u.bayShutdowns }).raise .shutdown).stopAll
  else if s.holdsBay && !s'.holdsBay then (s'.raise .shutdown).releasePumps
  else s'

/-- R123, R124: a SPILL is offered with a cause list. A RESTORE that it withdraws frees a place, which
the pending offers take at once (R144). -/
def State.offerSpill (s : State) (causes : List BayCause) : State :=
  (s.modLink fun l => l.offer (.spill causes)).fillPlaces

/-- R123, R124: a bay cause is raised; it creates the origin or is added to its list, and a SPILL
with the whole list is offered. -/
def State.raiseBay (s : State) (c : BayCause) : State :=
  match s.shut.origin with
  | none =>
    ((s.offerSpill [c]).changeSources fun s =>
      s.modShut fun u => { u with origin := some [c] }).raise .shutdown
  | some l =>
    if l.contains c then s
    else
      ((s.modShut fun u => { u with origin := some (l ++ [c]) }).offerSpill (l ++ [c])).raise
        .shutdown

/-- R119: a hose fault cause enters the set of a hose. -/
def State.raiseHoseFault (s : State) (h : Hose) (add : HoseFaults → HoseFaults) : State :=
  let old := s.hoses[h].faults
  if add old = old then s
  else
    let began := !s.hoseFaulted h
    let s := (s.modHose h fun u => { u with faults := add u.faults }).raise .shutdown
    if began then s.endFill h .hoseFault
    else if (s.fill h).state = .settling ∧ 0 < (s.fill h).valveCmd then
      s.modFill h Fill.emergencyClose
    else s

/-- R121: a CREEP cause enters the lane shutdown list; it sets a clear latch. The SHUTDOWN flag is set
for a hose already listed too (log 65). -/
def State.raiseLane (s : State) (h : Hose) : State :=
  let began := !s.shut.latch
  let s := (s.modShut fun u =>
    { u with latch := true, creepList := put u.creepList h true }).raise .shutdown
  if began then s.shutFills else s

/-- R133: a listed CREEP entry is present while the accumulation that raised it is open (R121). -/
def State.creepPresent (s : State) (h : Hose) : Bool :=
  match (s.meter h).creep with
  | none => false
  | some c => c.raised

/-- R125: a listed cause is active. -/
def State.causeActive (s : State) : BayCause → Bool
  | .estop => s.shut.estop.debounced
  | .sump => s.shut.sump.debounced
  | .bund t => s.shut.bund[t].debounced && s.isHome t
  | .stockLoss => false
  | .excessFlow h => (s.meter h).excessRun == 3

/-! ## The visit's ends -/

/-- R73: the visit in QUERYING or OPEN enters ENDING with an outcome; its FILL-kind fills in ARMED
and STARTING return to IDLE. -/
def State.endVisit (s : State) (o : VisitOutcome) : State :=
  if s.visit.state = .querying ∨ s.visit.state = .opened then
    forHoses (fun h s => s.visitEnds h)
      (s.modVisit fun v =>
        { v with state := .ending, queryT := none, idleT := none, note := none,
                 lastOutcome := some o })
  else s

/-- R39, R74, R169: CONFIG_FAULT is entered. -/
def State.enterConfigFault (s : State) : State :=
  (((s.modCfg fun c => { c with fault := true }).raise .config).endFills .configFault).endVisit
    .configFault

end Sys2Proof.Machine
end

