-- ==== Sys2Proof/Machine/VisitOps.lean ====
section
/-! DEFINITION. The visit manager's shared steps: the query (R68), identification (R63), adoption
(R64), hours (R58), and the end of the query window (R71). -/

namespace Sys2Proof.Machine

/-- R68: the account record of the visit's machine is marked in use. -/
def State.markInUse (s : State) : State :=
  match s.visit.machineId with
  | none => s
  | some m =>
    match s.accounts.find m with
    | none => s
    | some (p, a) =>
      (s.modAccounts fun t => t.set p { a with inUse := true }).modVisit fun v =>
        { v with position := some p }

/-- R68: the entry to QUERYING. -/
def State.enterQuerying (s : State) : State :=
  let s := s.modVisit fun v => { v with state := .querying, queryT := some Config.queryMs }
  let s := s.markInUse
  s.modLink fun l => l.offer (.query (s.visit.machineId.getD 0))

/-- R58: the visit's hours at a confirmation, and whether the tag's were not adopted. -/
def confirmedHours (visit tag : Option Nat) : Option Nat × Bool :=
  match tag, visit with
  | none, h => (h, false)
  | some x, none => (some x, false)
  | some x, some h => if h ≤ x then (some x, false) else (some h, true)

/-- R58: the hours of a confirmed block are taken. -/
def State.takeHours (s : State) (b : TagBlock) : State :=
  let x := confirmedHours s.visit.hours b.hours
  let s := s.modVisit fun v => { v with hours := x.1 }
  if x.2 then s.modTag fun t => { t with hoursNotAdopted := sat16 t.hoursNotAdopted } else s

/-- R63, R66: a refused opening: the visit is NONE with its outcome, the VISIT flag is set. -/
def State.refuseVisit (s : State) (o : VisitOutcome) : State :=
  ({ s with visit := { Visit.reset with lastOutcome := some o } }).raise .visit

/-- R63: a new identification from an accepted block. -/
def State.identify (s : State) (b : TagBlock) : State :=
  if s.cfg.fault then s.refuseVisit .configFault
  else if s.link.dupStation then s.refuseVisit .duplicateStation
  else if s.shownByPeer b.machineId then s.refuseVisit .tagInUse
  else
    let s := { s with visit :=
      { Visit.reset with
        state := .identifying, origin := some .tag,
        tagId := some { serial := b.serial, machineId := b.machineId },
        machineId := some b.machineId, cls := some b.cls, fuelCap := some b.fuelCap,
        lubeCap := some (s.lubeResolved b.lubeCap), hours := b.hours,
        lastOutcome := s.visit.lastOutcome } }
    s.enterQuerying.modTag fun t => { t with lastReport := some .confirmed }

/-- R64, R71: the record at the visit's account position takes class and capacities from the
visit. -/
def State.writeVisitFields (s : State) : State :=
  match s.visit.position, s.visit.cls, s.visit.fuelCap, s.visit.lubeCap with
  | some p, some cls, some fuel, some lube =>
    (match s.accounts.at? p with
     | none => s
     | some a =>
       s.modAccounts fun t => t.set p { a with cls := cls, fuelCap := fuel, lubeCap := lube })
  | _, _, _, _ => s

/-- R64: an IDENTIFIED report during a manual visit. -/
def State.identifyManual (s : State) (b : TagBlock) : State :=
  if s.visit.state = .querying ∨ s.visit.state = .opened then
    if s.visit.machineId = some b.machineId then
      let s := s.modVisit fun v =>
        { v with origin := some .tag,
                 tagId := some { serial := b.serial, machineId := b.machineId },
                 cls := some b.cls, fuelCap := some b.fuelCap,
                 lubeCap := some (s.lubeResolved b.lubeCap) }
      (s.writeVisitFields.takeHours b).modTag fun t => { t with lastReport := some .confirmed }
    else (s.modVisit fun v => { v with barred := true }).raise .visit
  else s

/-- R71: the record of the visit's machine at the end of the window: created, or class and
capacities settled between record and visit. -/
def State.settleRecord (s : State) (m : U32) : State :=
  match s.accounts.find m with
  | none =>
    let cls := s.visit.cls.getD .support
    let fuel := s.visit.fuelCap.getD (s.fuelDefault .support)
    let lube := s.visit.lubeCap.getD s.lubeDefaults
    let s := s.modAccounts fun t => t.create (Account.fresh m cls fuel lube .tagOnly s.clock true)
    s.modVisit fun v =>
      { v with cls := some cls, fuelCap := some fuel, lubeCap := some lube,
               position := (s.accounts.find m).map Prod.fst }
  | some (p, a) =>
    if s.visit.origin = some .tag then
      let s := s.modVisit fun v => { v with position := some p }
      s.writeVisitFields
    else
      s.modVisit fun v =>
        { v with cls := some a.cls, fuelCap := some a.fuelCap, lubeCap := some a.lubeCap,
                 position := some p }

/-- R71: the window ends and the visit enters OPEN. -/
def State.openVisit (s : State) : State :=
  let s := match s.visit.machineId with
    | none => s
    | some m => s.settleRecord m
  let s := match s.visit.position with
    | none => s
    | some p =>
      match s.accounts.at? p with
      | none => s
      | some a => s.modAccounts fun t => t.set p { a with inUse := true, lastUsed := s.clock }
  (s.modVisit fun v =>
    { v with state := .opened, queryT := none, note := none,
             idleT := some Config.visitIdleMs }).raise .visit

end Sys2Proof.Machine
end

