-- ==== Sys2Proof/Machine/TagOps.lean ====
section
/-! DEFINITION. The tag interface's shared steps: activation (R48, R49), the exchange (R50 to
R55), its reports (R56 to R58) and deactivation (R59). -/

namespace Sys2Proof.Machine

/-- R48, R186: the conditions under which the interface may be activated. -/
def State.mayActivate (s : State) : Bool :=
  !s.laneClosed && !s.closePending && !s.link.dupStation && s.started

/-- R49: POWERING, from OFF, WAITING or LOST; both presence runs restart at 0 (log 77). -/
def Tag.power (t : Tag) : Tag :=
  { t with act := .powering, coil := true, txFifo := [], lastMark := none, rxFifo := [],
           overrun := false, header := none, retry := 0, absentRun := 0, presentRun := 0,
           absenceSeen := false, sending := false, fieldT := some Config.fieldMs, retryT := none,
           windowT := none, gapT := none, sampleT := none }

/-- R48: an interface in OFF enters POWERING when it may be activated. -/
def State.activate (s : State) : State :=
  if s.tag.act = .off ∧ s.mayActivate then s.modTag Tag.power else s

/-- R48: as on a lift, when hose 0 is off the hook. Before the first debounced position since a reset
(R20) it counts as not off the hook (log 83). -/
def State.reactivate (s : State) : State :=
  if s.hoses[(0 : Hose)].hook.debounced = some true then s.activate else s

/-- R49: the field is stable and the load shows no tag. -/
def Tag.noTag (t : Tag) : Tag :=
  { t with act := .waitingNoTag, coil := false, fieldT := none, retryT := some Config.tagRetryMs }

/-- R51: RESETTING: the wake pattern is sent. -/
def Tag.wake (t : Tag) : Tag :=
  { t with act := .resetting, txFifo := [], lastMark := none, rxFifo := [], overrun := false,
           sending := true, fieldT := none, windowT := none, gapT := none, sampleT := none }

/-- R52: EXCHANGING: the command is placed in the transmit FIFO and sent. -/
def Tag.command (t : Tag) (block : Byte) : Tag :=
  { t with act := .exchanging, txFifo := [0x30, block], lastMark := some 1, rxFifo := [],
           overrun := false, sending := true, windowT := none, gapT := none }

/-- R52: the send ends; what was sent from the FIFO is followed by its CRC-16. -/
def Tag.sent (t : Tag) : Tag :=
  { t with sending := false, txFifo := [], lastMark := none,
           airOut := if t.txFifo.isEmpty then [] else t.txFifo ++ crc16Bytes t.txFifo,
           windowT := some Config.answerMs }

/-- R50: the interface awaits or collects an answer. A byte that arrives while the part still sends the
wake pattern or a command does not count to the answer (log 69). -/
def Tag.listens (t : Tag) : Bool :=
  (t.act == .resetting || t.act == .exchanging) && (t.windowT.isSome || t.gapT.isSome)

/-- R50: a byte arrives. -/
def Tag.receive (t : Tag) (b : Byte) (parity : Bool) : Tag :=
  if t.rxFifo.length < Config.tagFifoBytes then
    { t with rxFifo := t.rxFifo ++ [(b, evenParity b parity)], windowT := none,
             gapT := some Config.gapMs }
  else { t with overrun := true, windowT := none, gapT := some Config.gapMs }

/-- R54: the attempt ends with TAG_FAULT. -/
def Tag.endAttempt (t : Tag) (r : TagReason) : Tag :=
  { t with act := .waitingFaulted, coil := true, txFifo := [], lastMark := none, rxFifo := [],
           overrun := false, absentRun := 0, presentRun := 0, absenceSeen := false,
           lastReport := some .fault, lastFault := some r, faults := sat16 t.faults,
           sending := false, windowT := none, gapT := none, sampleT := some Config.tenthMs }

/-- R54: the attempt ends: TAG_FAULT. -/
def State.tagFault (s : State) (r : TagReason) : State :=
  (s.modTag fun t => t.endAttempt r).raise .tag

/-- R54: an exchange fails: a retry, or the end of the attempt. -/
def State.failExchange (s : State) (r : TagReason) : State :=
  if s.tag.retry < Config.tagRetries then
    s.modTag fun t =>
      { t.wake with retry := t.retry + 1, retries := sat16 t.retries, lastFault := some r }
  else s.tagFault r

/-- R50: the number of bytes expected in a state. -/
def TagAct.expected : TagAct → Nat
  | .resetting => 8
  | .exchanging => 34
  | _ => 0

/-- R50: the checks every answer passes first. -/
def Tag.answerFault (t : Tag) : Option TagReason :=
  if t.overrun then some .overrun
  else if t.rxFifo.any fun b => !b.2 then some .parity
  else if t.rxFifo.length ≠ t.act.expected then some .length
  else none

/-- R52: the checks of a data block against its CRC-16 and the identity header. -/
def Tag.blockFault (t : Tag) (l : List Byte) : Option TagReason :=
  if crc16 (l.take 32) ≠ u16At l 32 then some .blockCrc
  else
    match t.header with
    | none => some .serial
    | some h => if u32At l 18 = h.serial then none else some .serial

/-- R57, R59: the loss of the tag reaches the fill on hose 0. -/
def State.reportLost (s : State) : State :=
  let s := s.modTag fun t => { t with lastReport := some .lost }
  if s.tagGoverns 0 then s.enterHold 0 .tagLost else s

/-- R58, R65: a CONFIRMED report. -/
def State.reportConfirmed (s : State) (b : TagBlock) : State :=
  let s := (s.modTag fun t => { t with lastReport := some .confirmed }).takeHours b
  if s.tagGoverns 0 then s.leaveHold 0 .tagLost else s

/-- R40, R65: a CHANGED report. -/
def State.reportChanged (s : State) : State :=
  let s := ((s.modTag fun t => { t with lastReport := some .changed }).raise .tag).modVisit
    fun v => { v with barred := true }
  if s.tagGoverns 0 && (s.fill 0).state != .armed then s.endFill 0 .tagChanged else s

/-- R56: an IDENTIFIED report. -/
def State.reportIdentified (s : State) (b : TagBlock) : State :=
  let s := s.modTag fun t => { t with lastReport := some .identified }
  if s.visit.state = .none then s.identify b else s.identifyManual b

/-- R55, R56: the accepted block is held and the interface READY. -/
def Tag.accept (t : Tag) (b : TagBlock) : Tag :=
  { t with act := .ready, block := some b, rxFifo := [], overrun := false,
           reads := sat16 t.reads, retry := 0, absentRun := 0, presentRun := 0,
           absenceSeen := false, gapT := none, windowT := none, sampleT := some Config.tenthMs }

/-- R56: the one report made on entry to READY. -/
def State.reportBlock (s : State) (b : TagBlock) : State :=
  if s.visit.state ≠ .none ∧ s.visit.tagId.isSome then
    if s.visit.machineId = some b.machineId then s.reportConfirmed b else s.reportChanged
  else s.reportIdentified b

/-- R51: the answer of RESETTING after the checks of R50. -/
def State.judgeHeader (s : State) (l : List Byte) : State :=
  if crc16 (l.take 6) ≠ u16At l 6 then s.failExchange .headerCrc
  else if 15 < (u8At l 5).toNat ∨ u8At l 4 ≠ 1 then s.tagFault .content
  else s.modTag fun t => ({ t with header := some (headerOf l) }).command (u8At l 5)

/-- R52, R55: the answer of EXCHANGING after the checks of R50. -/
def State.judgeBlock (s : State) (l : List Byte) : State :=
  match s.tag.blockFault l with
  | some r => s.failExchange r
  | none =>
    if blockContentBad l then s.tagFault .content
    else
      let b := blockOf s.fuelDefault l
      (s.modTag fun t => t.accept b).reportBlock b

/-- R50: the answer has ended and is judged. -/
def State.judgeAnswer (s : State) : State :=
  match s.tag.answerFault with
  | some .overrun =>
    (s.modTag fun t => { t with overruns := sat16 t.overruns }).failExchange .overrun
  | some r => s.failExchange r
  | none =>
    let l := s.tag.rxFifo.map Prod.fst
    if s.tag.act = .resetting then s.judgeHeader l else s.judgeBlock l

/-- R59: OFF with the coil off. -/
def Tag.off (t : Tag) : Tag :=
  { t with act := .off, coil := false, txFifo := [], lastMark := none, rxFifo := [],
           overrun := false, header := none, retry := 0, absentRun := 0, presentRun := 0,
           absenceSeen := false, sending := false, fieldT := none, retryT := none, windowT := none,
           gapT := none, sampleT := none }

/-- R59: deactivation. -/
def State.deactivate (s : State) : State :=
  if s.tag.act = .off then s
  else
    let ready := s.tag.act == .ready
    let s := s.modTag Tag.off
    if ready then s.reportLost else s

/-- R57: a sample in READY.
Both presence runs restart at 0 as LOST is entered (log 77). -/
def State.sampleReady (s : State) (present : Bool) : State :=
  if present then s.modTag fun t => { t with absentRun := 0 }
  else if s.tag.absentRun + 1 < 3 then
    s.modTag fun t => { t with absentRun := t.absentRun + 1 }
  else (s.modTag fun t => { t with act := .lost, absentRun := 0, presentRun := 0 }).reportLost

/-- R57: a sample in LOST. -/
def Tag.sampleLost (t : Tag) (present : Bool) : Tag :=
  if present then
    if t.presentRun + 1 < 2 then { t with presentRun := t.presentRun + 1 } else t.power
  else { t with presentRun := 0 }

/-- R54: a sample in WAITING FAULTED. -/
def Tag.sampleFaulted (t : Tag) (present : Bool) : Tag :=
  if t.absenceSeen then t.sampleLost present
  else if present then { t with absentRun := 0 }
  else if t.absentRun + 1 < 3 then { t with absentRun := t.absentRun + 1 }
  else { t with absentRun := 0, absenceSeen := true, presentRun := 0 }

/-- R151: DUPLICATE_STATION is set. No attempt begins from here on; one that is in progress runs on to its
own end (log 84). -/
def State.setDuplicate (s : State) : State :=
  if s.link.dupStation then s
  else
    let s := (s.modLink fun l => { l with dupStation := true }).raise .link
    (s.stopAll.endVisit .duplicateStation).deactivate

end Sys2Proof.Machine
end

