-- ==== Sys2Proof/Machine/TermOps.lean ====
section
/-! DEFINITION. The request engine (R178, R179): how a request is judged, taken and answered. -/

namespace Sys2Proof.Machine

/-- What a request's own rule answers. -/
inductive Answer where
  /-- DONE with the items after the code. -/
  | done (items : List Byte)
  /-- REFUSED with a reason. -/
  | refused (r : Reason)
  /-- BUSY: the request is not taken (R155). -/
  | busy
  /-- The engine executes; the reply is formed when a job or load completes. -/
  | executing
  deriving DecidableEq, Repr

/-- R179: a reply is formed in the slot and READY is high. -/
def State.formReply (s : State) (code : Byte) (st : Status) (items : List Byte) : State :=
  s.modTerm fun t => { t with slot := some { code := code, status := st, items := items },
                              ready := true }

/-- R179: the execution of a request ends with a reply; the engine is free again. -/
def State.endExecution (s : State) (st : Status) (items : List Byte) : State :=
  match s.term.engine with
  | none => s
  | some code => (s.modTerm fun t => { t with engine := none }).formReply code st items

/-- R178: 0xFF is shifted out on every byte of a request of `n` payload bytes. -/
def State.clockRequest (s : State) (n : Nat) : State :=
  s.modTerm fun t => { t with dataOut := List.replicate (n + 3) 0xFF }

/-- R172, R175, R178: a request taken discards the reply held and clears latch and key. -/
def State.taken (s : State) : State :=
  s.modTerm fun t => { t with slot := none, latch := false, key := false }

/-- R179: the engine executes, or start-up has not ended. -/
def State.busyLine (s : State) : Bool := s.term.engine.isSome || !s.started

/-- R179: the answer of a request's own rule becomes its reply. -/
def State.answer (s : State) (code : Byte) : Answer → State
  | .done items => s.formReply code .done items
  | .refused r => s.formReply code .refused [r.code]
  | .busy => s.formReply code .busy []
  | .executing => s.modTerm fun t => { t with engine := some code }

/-- R179: a request of `n` payload bytes is judged; `rule` runs on the state it is taken in. -/
def State.judge (s : State) (code : Byte) (n : Nat) (rule : State → State × Answer) : State :=
  let s := s.clockRequest n
  if s.busyLine then s.formReply code .busy []
  else (rule s).1.answer code (rule s).2

/-- R179: a request whose rule never answers BUSY: taken, then its rule. -/
def State.request (s : State) (code : Byte) (n : Nat) (rule : State → State × Answer) : State :=
  s.judge code n fun s => rule s.taken

/-- A request that only reads: DONE with the items as they stand when it is taken. -/
def State.readRequest (s : State) (code : Byte) (n : Nat) (items : State → List Byte) : State :=
  s.judge code n fun s => (s.taken, .done (items s))

/-- R179: the reason of the first check that fails. -/
def firstFailure : List (Bool × Reason) → Option Reason
  | [] => none
  | (ok, r) :: rest => if ok then firstFailure rest else some r

/-- A rule with its checks: refused by the first that fails, with nothing changed. -/
def guarded (checks : List (Bool × Reason)) (s : State) (ok : State × Answer) : State × Answer :=
  match firstFailure checks with
  | some r => (s, .refused r)
  | none => ok

/-- What a command answers. -/
abbrev Result := Host.Outcome State Fault Refusal

end Sys2Proof.Machine
end

