-- ==== Sys2Proof/Machine/LoadOps.lean ====
section
/-! DEFINITION. Configuration loading (R168), start-up recovery (R165, R166), the bay inputs at
the end of start-up (R132) and the resets (R185). -/

namespace Sys2Proof.Machine

/-! ## Loading -/

/-- A word of a configuration section. -/
def inConfig (e : StoreError) : Bool :=
  match e.area with
  | .config _ => true
  | _ => false

/-- R4, R18, R176: every hose leaves prover mode and takes up its working Keff; with the HOSES or
PRODUCTS section invalid the fault runs are 0. -/
def State.loadHose (s : State) (h : Hose) : State :=
  let operate := s.sectionValid .hoses && s.sectionValid .products
  let s := s.modHose h fun u => { u with override := none }
  s.modMeter h fun m =>
    { m with keff := s.keffFor h m.band, mismatchRun := if operate then m.mismatchRun else 0,
             excessRun := if operate then m.excessRun else 0 }

/-- R85, R168: the home stations in use after a load: those of a valid TANKS section. -/
def Cfg.takeHomes (c : Cfg) : Vector (Option Station) 8 :=
  if c.valid[Section.tanks.index] then
    Vector.ofFn fun t => stationOf c.data.tanks[t].home
  else c.homeOf

/-- R85: tank `t` is in the homed tank list in use after a load. -/
def State.homedNow (s : State) (t : Tank) : Bool :=
  if s.sectionValid .station && s.sectionValid .tanks then s.cfg.data.homedBit t else s.isHome t

/-- R117: a bund input as a tank joins the homed tank list: normal, its debounce from the load. -/
def InputUnit.join (u : InputUnit) : InputUnit :=
  { u with debounced := false, timer := if u.raw then some Config.floatMs else none }

/-- R117: a bund input that is no longer read. -/
def InputUnit.leave (u : InputUnit) : InputUnit := { u with debounced := false, timer := none }

/-- R85: a view is left with no stock, and its pump view UNKNOWN. The mark DEGRADED is cleared and the
last GAUGE items stand, of which R85 says nothing (log 50). -/
def State.emptyView (s : State) (t : Tank) : State :=
  (s.changeView t fun v =>
    { v with stock := none, state := .gaugeFault, degraded := false, noValue := true }
  ).setPumpView t .unknown

/-- R85: a home tank unit is removed. -/
def State.removeHome (s : State) (t : Tank) (u : HomeUnit) : State :=
  let s := { s with home := put s.home t none }
  let s := if u.receipt.isSome then
      s.modNv fun n => { n with reservations := n.reservations - 1 }
    else s
  let s := s.modShut fun x => { x with bund := put x.bund t x.bund[t].leave }
  s.emptyView t

/-- R85, R92: a home tank unit is created with its working values. The view of the tank stands as the
frames of its former home station left it, until the unit
first offers a GAUGE (log 50). -/
def State.createHome (s : State) (t : Tank) : State :=
  let s := { s with home := put s.home t (some { HomeUnit.reset with cfg := s.tankCfg t }) }
  s.modShut fun x => { x with bund := put x.bund t x.bund[t].join }

/-- R85: the home tank unit of a tank at a load. A tank without a home station, not homed here,
keeps no stock in its view. One that moves between two other stations keeps its view as it stands
(log 50). -/
def State.loadHome (s : State) (t : Tank) : State :=
  match s.home[t] with
  | some u => if s.homedNow t then s else s.removeHome t u
  | none =>
    if s.homedNow t then s.createHome t
    else if s.cfg.homeOf[t] = none then s.emptyView t
    else s

/-- R106: the pump controller of a tank at a load: none with the STATION section invalid or the
tank not homed, else kept or started in RESTING. -/
def State.loadPump (s : State) (t : Tank) : State :=
  if s.sectionValid .station && s.isHome t then
    match s.pumps[t] with
    | some _ => s
    | none => { s with pumps := put s.pumps t (some Pump.reset) }.changePump t id
  else
    match s.pumps[t] with
    | none => s
    | some _ => ({ s with pumps := put s.pumps t none }).setPumpView t .unknown

/-- R152: the line is left: nothing is being sent or received. The queue keeps what a failed attempt
keeps of it (R143, R145), with nothing counted (log 56). -/
def Link.quiet (l : Link) : Link :=
  { l with line := .wait, idleCount := 0, dropped := false,
           txQueue := failedQueue l.newBeacon l.txQueue }

/-- R152: the number and rate of the last load that gave them, taken up or still to be. -/
def Link.target (l : Link) : Option Station × Byte := l.next.getD (l.number, l.rate)

/-- R152: a reload changes the number or the rate: queue and pending offers empty, retry count 0, no
withdrawal, and the new ones wait for the next IDLE. A frame being sent is abandoned (log 56). -/
def Link.renumber (l : Link) (x : Option Station × Byte) : Link :=
  { (if l.line = .sending then l.quiet else l) with
    txQueue := [], pendPump := [], pendGauge := [], pendBeacon := none, retry := 0,
    withdrawn := false, withdrawT := none, next := some x }

/-- R152: the link controller at a load. The first number and rate since the reset are taken up at
the load, those of a later one from the next IDLE, which on an idle line is the load (log 56). -/
def Link.load (l : Link) (valid : Bool) (c : StationCfg) : Link :=
  let x := (stationOf c.number, c.rate)
  if valid then
    if l.number = none then { l with number := x.1, rate := x.2, next := none }
    else if l.target = x then l
    else if l.line = .idle then (l.renumber x).takeUp
    else l.renumber x
  else l.quiet

/-- R96: the own last draw total of a tank is the entry of a number taken up for the first time
(log 6). -/
def TankView.number (v : TankView) (p : Station) : TankView :=
  match v.ownTotal with
  | none => v
  | some total => { v with lastTotals := put v.lastTotals p (some total), ownTotal := none }

/-- R96, R152: the link controller at a load; the own draw totals go to the own number. -/
def State.loadLink (s : State) : State :=
  let s := s.modLink fun l => l.load (s.sectionValid .station) s.cfg.data.station
  match s.link.number with
  | none => s
  | some p => { s with views := mapVec (fun v => v.number p) s.views }

/-- R169: CONFIG_FAULT is judged at a load's completion. -/
def State.judgeFault (s : State) : State :=
  let bad := allSections.any fun sec => !s.sectionValid sec
  if bad && !s.cfg.fault then s.enterConfigFault
  else if !bad && s.cfg.fault then (s.modCfg fun c => { c with fault := false }).raise .config
  else s

/-- R1, R19, R28, R171: the timers that run from the load of a reset, and Keff as READ_HOSE
returns it until the first interval end. -/
def State.startTimers (s : State) : State :=
  (forHoses (fun h s =>
      (s.modMeter h fun m => { m.show with interval := some Config.tenthMs }).modHose h fun u =>
        { u with ramp := some Config.tenthMs }) s).modCfg
    fun c => { c with parityT := some Config.parityMs }

/-- R168: the sections are read, copied, given parity and judged. -/
def State.loadSections (s : State) : State :=
  let s := s.readStore inConfig
  s.modCfg fun c =>
    let c' : Cfg :=
      { c with data := s.store.config, valid := judgeSections s.store,
               parity := Vector.ofFn fun i =>
                 sectionParity s.store.config (allSections.getD i.val .station),
               parityFault := false, reloadPending := false, loading := none }
    { c' with homeOf := c'.takeHomes }

/-- R168: a load completes and the blocks take up the working values. A new controller's PUMP frame
is offered before R152 empties the queue for a new number or rate, and goes with it (log 51). -/
def State.completeLoad (s : State) : State :=
  let s := s.loadSections
  let s := forHoses (fun h s => s.loadHose h) s
  let s := forTanks (fun t s => s.loadHome t) s
  let s := forTanks (fun t s => s.loadPump t) s
  s.loadLink.judgeFault

/-- R170: the items of the reply to RELOAD_CONFIG. -/
def State.loadItems (s : State) : List Byte :=
  (allSections.flatMap fun sec => beBool (s.sectionValid sec)) ++ beBool s.cfg.fault

/-! ## Recovery -/

/-- R164, R165: recovery begins with the epoch: its word is read and its update queued. -/
def State.beginRecovery (s : State) : State :=
  ((({ s with phase := .recovery }).readStore (inArea .epoch)).modNv fun n =>
    { n with recovery := .epoch }).offerJob (.epochUpdate (s.store.epoch + 1))

/-- R165: the record that was cut short before its totalled marker, with its slot. -/
def Store.untotalled (st : Store) : Option (Nat × LogEntry) :=
  st.log.find? fun e => !e.2.totalled

/-- R165: the tank word that finishes a record cut short; none is written when it shows the record's
sequence already. -/
def Store.finishWord (st : Store) (r : Record) : Option TankWord :=
  if st.totals[r.tank].applied = r.seq then none
  else some { total := st.totals[r.tank].total + BitVec.ofNat 32 r.net, applied := r.seq }

/-- R165: the tanks whose word reads with a double error. -/
def State.damagedWords (s : State) : List Tank :=
  (indices 8).filter fun t => s.readsDouble (inArea (.total t))

/-- R165: the next sequence number that recovery finds. The number of a fill whose entry checkpoint
was cut is drawn again (R26): the high-water that counts is `judgedHighWater`. -/
def Store.nextSequence (st : Store) : U32 :=
  let logMax := st.log.foldl (fun a e => Nat.max a e.2.record.seq.toNat) st.judgedHighWater.toNat
  let cpMax := (indices 4).foldl
    (fun a h =>
      match st.newerCopy h with
      | none => a
      | some (_, c) => Nat.max a c.data.seq.toNat) logMax
  BitVec.ofNat 32 (cpMax + 1)

/-- R161, R166: every UNCONSUMED FILL-kind record, by slot. -/
def Store.toAnnounce (st : Store) : List Nat :=
  (st.log.filter fun e => !e.2.consumed && e.2.record.kind == .fill).map Prod.fst

/-- R132: a bay input that has read active since the reset is taken as debounced active. A bund pin
that became active between the reset and the load that first reads it is not (log 62). -/
def State.takeInput (s : State) (u : InputUnit) (store : InputUnit → Shutdown → Shutdown)
    (c : BayCause) : State :=
  if u.raw && u.sinceReset then
    (s.modShut fun x => store { u with debounced := true, timer := none } x).raiseBay c
  else s

/-- R132: the bay inputs at the end of recovery. Of several that are taken up in this event the emergency
stop is first, then the sump float, then the bund sensors, tank 1 first: the order of their causes in
the origin and in its SPILL (log 15). -/
def State.takeInputs (s : State) : State :=
  let s := s.takeInput s.shut.estop (fun u x => { x with estop := u }) .estop
  let s := s.takeInput s.shut.sump (fun u x => { x with sump := u }) .sump
  forTanks (fun t s =>
    if s.isHome t then
      s.takeInput s.shut.bund[t] (fun u x => { x with bund := put x.bund t u }) (.bund t)
    else s) s

/-- R166, R186: recovery ends: reservations, announced states, the bay inputs; the first beacon is
awaited. -/
def State.endRecovery (s : State) : State :=
  let s := s.modNv fun n =>
    { n with reservations := 0, unannounced := s.store.toAnnounce, recovery := .nothing }
  let s := s.raiseIf (decide (Config.nearlyFull ≤ s.unconsumed)) .nv
  { s.takeInputs with phase := .beacon, firstBeaconT := some Config.firstBeaconMs }

/-- R166: the checkpoint copy read has a double error in the word `w` (log 9: word 0 is the
sequence, 1 the net, 2 the gross). -/
def State.copyDamaged (s : State) (h : Hose) (b : Bool) (w : Nat) : Bool :=
  s.readsDouble fun e => e.area == .checkpoint h b && e.word == w

/-- R158, R166: the INTERRUPTED record of a checkpoint. One of kind PROVER holds no crediting results,
as the table of section 9.4 has it (log 81). -/
def State.interruptedRecord (s : State) (h : Hose) (b : Bool) (c : Checkpoint) : Record :=
  let fill := c.machine.isSome
  { seq := if s.copyDamaged h b 0 then s.nv.nextSeq else c.seq,
    kind := if fill then .fill else .prover, hose := some h, tank := c.tank, product := c.product,
    lubeSlot := if s.isLube c.product then s.lubeSlotNow h else none,
    machineId := c.machine.map MachineFields.machineId, cls := c.machine.bind MachineFields.cls,
    hours := none, preset := some c.preset, net := if s.copyDamaged h b 1 then 0 else c.net,
    gross := some (if s.copyDamaged h b 2 then 0 else c.gross), tempAvg := none,
    startTime := c.startTime, endTime := s.clock, endCause := some .interrupted,
    credit := if fill then some { dhUsed := 0, rate := none, fillCount := 0 } else none,
    flags := { fill := c.flags, negative := false, startDegraded := false, endDegraded := false,
               overStrap := false },
    receipt := none, damaged := s.readsDouble (inArea (.checkpoint h b)) }

/-- R166: the log holds a complete record of a sequence. -/
def Store.holdsSeq (st : Store) (q : U32) : Bool := st.log.any fun e => e.2.record.seq == q

/-- R166: the checkpoint slots of the hoses still to do, in order; a record job is waited for. -/
def State.recoverHoses (s : State) : List Hose → State
  | [] => s.endRecovery
  | h :: rest =>
    match s.store.newerCopy h with
    | none => s.recoverHoses rest
    | some (b, x) =>
      let s := s.readStore (inArea (.checkpoint h b))
      if !s.copyDamaged h b 0 && s.store.holdsSeq x.data.seq then
        (s.modStore fun st => st.clearCheckpoint h).recoverHoses rest
      else
        let r := s.interruptedRecord h b x.data
        let s := s.modNv fun n =>
          { n with recovery := .record rest,
                   nextSeq := if s.copyDamaged h b 0 then n.nextSeq + 1 else n.nextSeq }
        s.offerJob (.record (.interrupted h) r)

/-- R165: the working totals and the next sequence number, then the checkpoints. -/
def State.recoverSequence (s : State) : State :=
  (s.modNv fun n =>
    { n with totals := mapVec TankWord.total s.store.totals,
             nextSeq := s.store.nextSequence }).recoverHoses (indices 4)

/-- R165: the next tank word update that recovery waits for, then the sequence. -/
def State.recoverTotals (s : State) (rest : List Tank) : State :=
  match s.store.untotalled with
  | some (slot, e) =>
    (s.modNv fun n => { n with recovery := .totals rest }).offerJob
      (.totalUpdate e.record.tank (s.store.finishWord e.record) (some slot))
  | none =>
    match rest with
    | t :: rest' =>
      (s.modNv fun n => { n with recovery := .totals rest' }).offerJob
        (.totalUpdate t (some s.store.totals[t]) none)
    | [] => s.recoverSequence

/-- A word that the log scan reads. -/
def inScan (e : StoreError) : Bool :=
  match e.area with
  | .slot _ => true
  | .total _ => true
  | .highWater => true
  | .epoch => false
  | .config _ => false
  | .lock _ => false
  | .checkpoint _ _ => false

/-- R165: the log scan. -/
def State.scanLog (s : State) : State :=
  let s := s.readStore inScan
  s.recoverTotals s.damagedWords

/-! ## Resets (R185) -/

/-- R116, R132: a bay input after a reset: one that reads active has no debounce timer, and is taken up
at the end of recovery if it has stayed active until then (log 62). -/
def InputUnit.afterReset (u : InputUnit) : InputUnit :=
  { InputUnit.reset with raw := u.raw, sinceReset := u.raw }

/-- R20: a hook switch after a reset. -/
def HoseUnit.afterReset (u : HoseUnit) : HoseUnit :=
  { HoseUnit.reset with hook := { HoseUnit.reset.hook with raw := u.hook.raw } }

/-- R154, R185: the part after a reset; `steps` says how far the job in progress had come. Pins and
the queue of commands stand. -/
def State.resetBy (s : State) (kind : ResetKind) (steps : Nat) : State :=
  let warm := kind == .warm
  let unset := !warm || s.clockUnset
  { State.reset with
    pending := s.pending,
    hoses := mapVec HoseUnit.afterReset s.hoses,
    pressure := s.pressure,
    shut :=
      { Shutdown.reset with
        estop := s.shut.estop.afterReset, sump := s.shut.sump.afterReset,
        bund := mapVec InputUnit.afterReset s.shut.bund },
    store := s.store.torn s.nv.queue.head? s.nv.run steps,
    nv :=
      if warm then
        { Nv.reset with sc := s.nv.sc, dc := s.nv.dc, scCap := s.nv.scCap, dcCap := s.nv.dcCap }
      else Nv.reset,
    clock := if warm then s.clock else 0,
    clockUnset := unset,
    flags := if unset then EventFlag.clockUnset.mask else 0,
    lastReset := kind }

end Sys2Proof.Machine
end

