-- ==== Sys2Proof/Machine/Replies.lean ====
section
/-! DEFINITION. The items of the read replies, each in the order its rule lists them (R187,
log 14). -/

namespace Sys2Proof.Machine

/-- The seconds left on a timer, absent when it does not run. -/
def secondsLeft (t : Timer) : List Byte := beOpt 2 (t.map fun ms => ms / 1000)

/-- The milliseconds left on a timer, absent when it does not run. -/
def msLeft (t : Timer) : List Byte := beOpt 2 t

/-- An optional item of one value per entry of a list. -/
def countedList {α : Type} (l : List α) (f : α → List Byte) : List Byte :=
  b1 l.length ++ l.flatMap f

/-! ## READ_IDENTITY and READ_STATUS (R180) -/

/-- R180. -/
def State.identityItems (s : State) : List Byte :=
  [Config.partCode, Config.interfaceRevision] ++
  [if s.sectionValid .station then s.cfg.data.station.number else 0] ++ bv16 s.link.epoch ++
  b1 s.lastReset.code ++ bv32 s.clock ++ beBool s.clockUnset

/-- R133: the hose fault set with each cause present or gone: one byte, the causes set in bits 0 and 1
and those present in bits 2 and 3 (log 14). -/
def State.hoseFaultItem (s : State) (h : Hose) : List Byte :=
  b1 (bitsNat [s.hoses[h].faults.meter, s.hoses[h].faults.valve, (s.meter h).mismatchRun == 5,
    s.hoses[h].valve.present])

/-- The listed members of the source set, own number included, in ascending order, with clear
counter and cause list, of the own member the origin's. With no number taken up the own member is
number 0 (log 64). -/
def State.sourceMembers (s : State) : List (Nat × Nat × Option (List (Byte × Byte))) :=
  let own := s.shut.origin.map fun l => l.map BayCause.bytes
  let unplaced := if s.link.number.isNone && own.isSome then [(0, 0, own)] else []
  unplaced ++ (indices 16).flatMap fun p =>
    if s.link.number = some p ∧ own.isSome then [(stationNo p, 0, own)]
    else
      match s.shut.sources[p] with
      | none => []
      | some x => [(stationNo p, x.clear, x.causes)]

/-- An entry put into a list that ascends by `key`. -/
def insertBy {α : Type} (key : α → Nat) (x : α) : List α → List α
  | [] => [x]
  | y :: rest => if key x ≤ key y then x :: y :: rest else y :: insertBy key x rest

/-- R187: a list in ascending number. -/
def ascending {α : Type} (key : α → Nat) (l : List α) : List α := l.foldr (insertBy key) []

/-- R187: the number by which the entries of a cause list ascend: the cause, then the detail
(log 14). -/
def causeKey (c : Byte × Byte) : Nat := c.1.toNat * 256 + c.2.toNat

/-- R187: a cause list of a member in ascending number, 0xFF for its absence. -/
def causesItem : Option (List (Byte × Byte)) → List Byte
  | none => [0xFF]
  | some l => countedList (ascending causeKey l) fun c => [c.1, c.2]

/-- R133: the shutdown items. A debounced state is a yes or no, 1 active and 0 normal, and the clear
counter of a source member one byte (log 14). -/
def State.shutdownItems (s : State) : List Byte :=
  beBool s.shut.estop.debounced ++ beBool s.shut.sump.debounced ++
  countedList ((indices 8).filter s.isHome)
    (fun t => b1 (tankNo t) ++ beBool s.shut.bund[t].debounced) ++
  (indices 4).flatMap s.hoseFaultItem ++ beBool s.shut.latch ++
  countedList ((indices 4).filter fun h => s.shut.creepList[h])
    (fun h => b1 h.val ++ beBool (s.creepPresent h)) ++
  beBool s.shut.origin.isSome ++
  countedList (ascending (fun c : BayCause => causeKey c.bytes) (s.shut.origin.getD []))
    (fun c => [c.bytes.1, c.bytes.2] ++ beBool (s.causeActive c)) ++
  countedList s.sourceMembers (fun m => b1 m.1 ++ b1 m.2.1 ++ causesItem m.2.2) ++
  b2 s.shut.spillsSent ++ b2 s.shut.restoresSent ++ b2 s.shut.bayShutdowns

/-- R174: the lock of a section as it reads; a double error counts as locked. -/
def State.locked (s : State) (sec : Section) : Bool :=
  s.store.locks[sec.index] || s.readsDouble (inArea (.lock sec))

/-- R177: the override of a hose. -/
def State.overrideItem (s : State) (h : Hose) : List Byte :=
  match s.hoses[h].override with
  | none => beBool false ++ List.replicate 20 0xFF
  | some o => beBool true ++ bv32 o.k1000 ++ bv32 o.c0 ++ bv32 o.c1 ++ bv32 o.c2 ++ bv32 o.c3

/-- R177: the configuration items. The parity fault and its pending reload are two yes or no bytes, the
second 0 once that reload is under way (log 14). -/
def State.configItems (s : State) : List Byte :=
  (allSections.flatMap fun sec => beBool (s.sectionValid sec)) ++
  (allSections.flatMap fun sec => beBool (s.locked sec)) ++ beBool s.cfg.fault ++
  beBool s.cfg.parityFault ++ beBool s.cfg.reloadPending ++ b2 s.cfg.parityFaults ++
  beBool s.term.latch ++ beBool s.term.key ++ (indices 4).flatMap s.overrideItem

/-- R181: flags, mask and attention line. -/
def State.eventItems (s : State) : List Byte :=
  b2 s.flags.toNat ++ b2 s.mask.toNat ++ beBool s.attention

/-- R180. -/
def State.statusItems (s : State) : List Byte :=
  s.shutdownItems ++ s.configItems ++ s.eventItems ++ b1 (laneCode s.laneClosed) ++
  beBool s.closePending ++ bv32 s.clock ++ beBool s.clockUnset ++ b1 s.visit.state.code ++
  (indices 4).flatMap (fun h => b1 (s.fill h).state.code) ++ beBool s.link.withdrawn ++
  beBool s.link.dupStation

/-! ## READ_HOSE (R46, R19) -/

/-- R46: the fill items. -/
def Fill.items (f : Fill) : List Byte :=
  b1 f.state.code ++ b1 (optCode FillKind.code f.kind) ++ beOpt 4 f.preset ++ b4 f.gross ++
  b4 f.net ++ optBv32 f.seq ++ b2 f.valveCmd ++ b2 f.rampTarget ++ beBool f.released ++
  b1 (bitsNat [f.holds.pumpLost, f.holds.homeSilent, f.holds.tagLost, f.holds.operator]) ++
  b1 (optCode EndCause.code f.endCause) ++ b1 (bitsNat f.flags.bits) ++
  b1 (optCode FillOutcome.code f.lastOutcome) ++ secondsLeft f.armT ++ secondsLeft f.startT ++
  secondsLeft f.holdT ++ secondsLeft f.tagLossT

/-- R19: the meter items. -/
def MeterView.items (m : MeterView) : List Byte :=
  b1 m.band.val ++ b4 m.keff ++ b1 m.tempStatus.code ++ beInt 2 m.t10 ++ b2 m.n ++
  b1 m.mismatchRun ++ b1 m.excessRun ++ beBool m.accumulating ++ b4 m.gross ++ b4 m.net ++
  beBool m.waiting

/-- R19: as they stood at the last interval end, which R46's `as they stand` gives way to
(log 42). -/
def Meter.items (m : Meter) : List Byte := m.shown.items

/-- R46. -/
def State.hoseItems (s : State) (h : Hose) : List Byte := (s.fill h).items ++ (s.meter h).items

/-! ## READ_TANK_VIEW (R103, R115) -/

/-- R103: the last GAUGE items, the station clock at its arrival the last of them (R93), and the
seconds since it arrived; without one the state is 0 and every other item all ones (R187). The seconds
take four bytes (log 14): the clock less the clock at the arrival, so a SET_CLOCK between the two moves
them (log 47). -/
def lastGaugeItems (now : U32) : Option LastGauge → List Byte
  | none => List.replicate 2 0xFF ++ b1 0 ++ List.replicate 3 0xFF ++ List.replicate 8 0xFF
  | some g => b2 g.level ++ b1 g.recon.code ++ beBool g.receipt ++ beBool g.overStrap ++
      beBool g.tempDefault ++ bv32 g.arrived ++ bv32 (now - g.arrived)

/-- The last draw total of a station for a tank (R94), the own number's among them (R96, log 6). -/
def State.lastTotal (s : State) (t : Tank) (p : Station) : Option U32 := s.views[t].lastTotals[p]

/-- R103: the view items. -/
def State.viewItems (s : State) (t : Tank) : List Byte :=
  let v := s.views[t]
  beOpt 4 (v.stock.map Stock.litres) ++ beOpt 4 (v.stock.map Stock.ml) ++ b1 v.state.code ++
  b1 (bitsNat [v.degraded, v.noValue]) ++ beBool (s.homeSilent t) ++
  lastGaugeItems s.clock v.lastGauge ++ b1 v.pump.code ++ b1 v.pump.reasonCode ++
  (indices 16).flatMap (fun p => optBv32 (s.lastTotal t p)) ++ b2 v.anomalies ++ b2 v.foreign

/-- R103: the receipt context of a tank, with the marks that R101 lists for its start; without one the
tank is 0 and the rest all ones (R187). -/
def receiptItems (t : Tank) : Option Receipt → List Byte
  | none => b1 0 ++ List.replicate 15 0xFF
  | some r => b1 (tankNo t) ++ b4 r.startGauged ++
      b1 (bitsNat [r.startDegraded, r.startOverStrap]) ++ b2 r.startLevel ++
      bv32 r.startTime ++ b4 r.draws

/-- R103: a book stock, all ones when absent. -/
def bookItems : Option Book → List Byte
  | none => List.replicate 8 0xFF
  | some b => beInt 4 b.litres ++ b4 b.ml

/-- R103: the items of the home unit of a tank; without a gauged value its remainder is 0 and it is
not degraded (R92). The invalid run and the loss run take one byte each (log 14). -/
def HomeUnit.items (u : HomeUnit) (t : Tank) : List Byte :=
  beOpt 2 u.level ++ beInt 2 u.t10 ++ b1 u.tempStatus.code ++ beOpt 4 u.gross ++
  beBool u.overStrap ++ beOpt 4 (u.gauged.map Gauged.litres) ++
  b4 ((u.gauged.map Gauged.ml).getD 0) ++
  beBool ((u.gauged.map Gauged.degraded).getD false) ++ b1 u.invalidRun ++ beBool u.fault ++
  b1 u.stockState.code ++ bookItems u.book ++ bv32 u.throughput ++ b4 u.throughputMl ++
  b1 u.recon.code ++ b1 u.lossRun ++ beInt 4 u.variance ++ receiptItems t u.receipt

/-- R115: the members of a demand set, own number with no timer, a remote member left under that number
hidden behind it (log 73). -/
def State.demandMembers (s : State) (p : Pump) : List (Nat × Timer) :=
  (indices 16).flatMap fun x =>
    if s.link.number = some x ∧ p.own then [(stationNo x, none)]
    else if p.remote[x].isSome then [(stationNo x, p.remote[x])]
    else []

/-- R115: the pump controller's items. -/
def State.pumpItems (s : State) (t : Tank) (p : Pump) : List Byte :=
  b1 p.state.code ++ b1 (optCode LockReason.code p.reason) ++ beBool p.state.contactor ++
  beBool s.pressure[t] ++
  countedList (s.demandMembers p) (fun m => b1 m.1 ++ msLeft m.2) ++
  msLeft p.startT ++ msLeft p.lossT ++ msLeft p.runOnT ++ msLeft p.restT ++ b2 p.starts ++
  b2 p.lockouts

/-- R103, R115: the reply. The home unit's and the controller's items come with the unit and the
controller alone; with no controller running its whole group is absent (log 28). -/
def State.tankItems (s : State) (t : Tank) : List Byte :=
  s.viewItems t ++
  (match s.home[t] with
   | none => []
   | some u => u.items t) ++
  (match s.pumps[t] with
   | none => []
   | some p => s.pumpItems t p)

/-! ## READ_PEER (R153) -/

/-- R153: beacon fields held in an entry. Without a beacon the named states, the machine id and the
tanks are 0, and flags, mask and count all ones (R187). -/
def beaconItems : Option BeaconFields → List Byte
  | none => b1 0 ++ b1 0 ++ [0xFF] ++ b4 0 ++ [0xFF] ++ [0xFF] ++ List.replicate 4 0
  | some b => b1 b.lane ++ b1 b.visit ++
      b1 (bitsNat [b.spill, b.laneShut, b.configFault, b.rejoined]) ++ bv32 b.machineId ++
      [b.demand] ++ b1 b.draws.length ++ ((b.draws.map Prod.fst) ++ List.replicate 4 0).take 4

/-- R153: the peer table entry of a station in the order of section 8.8, its last beacon time the clock
and the silence timer. The own one is the beacon last formed, with the rejoined flag 0 of its forming,
and its other items not heard, absent, not SILENT and 0 (log 66). -/
def State.entryItems (s : State) (p : Station) : List Byte :=
  let e := s.link.peers[p]
  if s.link.number = some p then
    beBool false ++ bv16 s.link.epoch ++ List.replicate 4 0xFF ++ msLeft none ++
    beaconItems s.link.ownBeacon ++ beBool false ++ b2 0 ++ b2 0 ++ b2 0
  else
    beBool e.heard ++ beOpt 2 (e.epoch.map BitVec.toNat) ++
    optBv32 e.lastAt ++ msLeft e.silenceT ++ beaconItems e.fields ++
    beBool e.silent ++
    b2 e.epochChanges ++ b2 e.rejoins ++ b2 e.silences

/-- R153: how many frames of a kind the transmit queue holds. -/
def Link.kindCount (l : Link) (k : Nat) : Nat :=
  (l.txQueue.filter fun e => e.frame.kind == k).length

/-- R153, R187: the tanks of pending offers, ascending. -/
def pendingItems (l : List Tank) : List Byte :=
  countedList ((indices 8).filter l.contains) fun t => b1 (tankNo t)

/-- R153: the link controller's items. -/
def Link.items (l : Link) : List Byte :=
  b1 l.line.code ++ beBool l.withdrawn ++ msLeft l.withdrawT ++ b1 l.retry ++
  beBool l.dupStation ++ bv16 l.epoch ++ (List.range 8).flatMap (fun k => b1 (l.kindCount k)) ++
  pendingItems l.pendPump ++ pendingItems l.pendGauge ++ beBool l.pendBeacon.isSome ++
  b1 l.rxQueue.length ++ b2 l.counts.framesSent ++ b2 l.counts.sendErrors ++
  b2 l.counts.arbLosses ++ b2 l.counts.withdrawals ++ b2 l.counts.displaced ++
  b2 l.counts.queriesDropped ++ b2 l.counts.repliesDropped ++ b2 l.counts.rxOverruns ++
  b2 l.counts.crcErrors ++ b2 l.counts.formatErrors ++ b2 l.counts.unknownKinds ++
  b2 l.counts.ownFrames

/-- R153: the seconds since the last beacon of a station, by the clock (log 47); none of the own
number (log 66). -/
def State.beaconAge (s : State) (p : Station) : Option U32 :=
  if s.link.number = some p then none else s.link.peers[p].lastAt.map fun x => s.clock - x

/-- R153: the entry, with the seconds since its last beacon, the last draw totals, the last summary
sequence and the link controller's items. -/
def State.peerItems (s : State) (p : Station) : List Byte :=
  s.entryItems p ++ optBv32 (s.beaconAge p) ++ (indices 8).flatMap (fun t => optBv32 (s.lastTotal t p)) ++
  bv32 s.accounts.lastSummary[p] ++ s.link.items

/-! ## READ_VISIT (R61, R76) -/

/-- R76: the visit's items. -/
def Visit.items (v : Visit) : List Byte :=
  b1 v.state.code ++ b1 (optCode VisitOrigin.code v.origin) ++
  optBv32 (v.tagId.map TagIdentity.serial) ++
  b4 (optCode BitVec.toNat (v.tagId.map TagIdentity.machineId)) ++
  b4 (optCode BitVec.toNat v.machineId) ++ b1 (optCode MachineClass.code v.cls) ++
  beOpt 2 v.fuelCap ++
  (match v.lubeCap with
   | none => List.replicate 6 0xFF
   | some c => c.toList.flatMap b2) ++
  beOpt 4 v.hours ++ beBool v.barred ++ beOpt 1 v.position ++ msLeft v.queryT ++
  secondsLeft v.idleT ++ b1 (visitOutcomeCode v.lastOutcome)

/-- R61: the tag data block held. -/
def tagBlockItems : Option TagBlock → List Byte
  | none => b4 0 ++ b1 0 ++ List.replicate 18 0xFF
  | some b => bv32 b.machineId ++ b1 b.cls.code ++ b2 b.fuelCap ++ b.lubeCap.toList.flatMap b2 ++
      beOpt 4 b.hours ++ [b.hoursValid] ++ bv32 b.serial ++ [b.format]

/-- R61: the tag interface's items. -/
def Tag.items (t : Tag) : List Byte :=
  b1 t.act.code ++ b1 t.act.waitCode ++ beBool t.coil ++ b1 t.retry ++
  b1 (optCode TagReport.code t.lastReport) ++ b1 (optCode TagReason.code t.lastFault) ++
  tagBlockItems t.block ++ b2 t.reads ++ b2 t.retries ++ b2 t.faults ++ b2 t.overruns ++
  b2 t.hoursNotAdopted

/-! ## READ_ACCOUNT, READ_ACCOUNT_AT (R76) -/

/-- R76: the fields of an account record. -/
def Account.items (a : Account) : List Byte :=
  bv32 a.machineId ++ b1 a.cls.code ++ b2 a.fuelCap ++ a.lubeCap.toList.flatMap b2 ++
  beOpt 4 a.lastHours ++ beOpt 4 a.rate ++ b2 a.fillCount ++ bv32 a.totalFuel ++
  bv32 a.hoursAccounted ++
  (indices 3).flatMap (fun n => bv32 a.lubeTotals[n] ++ b4 a.lubeRes[n]) ++ b1 a.source.code ++
  beBool a.stale ++ bv32 a.lastUsed ++ beBool a.inUse

/-- R76: the three counts of the account table. -/
def Accounts.countItems (a : Accounts) : List Byte :=
  b2 a.conflicts ++ b2 a.lateReplies ++ b2 a.evictions

/-- R76: READ_ACCOUNT: a found byte, then the record with its position, or with none held neither
(log 14). -/
def Accounts.foundItems (a : Accounts) : Option (Nat × Account) → List Byte
  | none => b1 0 ++ a.countItems
  | some (p, r) => b1 1 ++ r.items ++ b1 p ++ a.countItems

/-- R76: READ_ACCOUNT_AT: a found byte, then the record, or with the position free none (log 14). -/
def Accounts.positionItems (a : Accounts) : Option Account → List Byte
  | none => b1 0 ++ a.countItems
  | some r => b1 1 ++ r.items ++ a.countItems

/-! ## READ_RECORD (R162) and READ_NV_COUNTERS (R164) -/

/-- R157, R162: a READ_RECORD during the write in progress finds its complete marker written: the
free value says from which one on (log 16). -/
def RecordRun.marked (run : RecordRun) : Bool :=
  (List.range (run.reads + 1)).any (Config.markerWritten run.seq)

/-- R157, R159: the log as it reads: the slot of the record being written holds no record, and from
its complete marker on the new one. -/
def State.readLog (s : State) : List (Nat × LogEntry) :=
  match s.nv.queue.head?, s.nv.run with
  | some (.record _ r), some run =>
    (match run.slot with
     | none => s.store.log
     | some slot =>
       let rest := s.store.log.filter fun e => e.1 != slot
       if run.marked then
         insertAt slot { record := run.record r, totalled := false, consumed := false } rest
       else rest)
  | _, _ => s.store.log

/-- R159: a slot whose record is UNCONSUMED; the record being written is not yet. -/
def State.countsUnconsumed (s : State) (e : Nat × LogEntry) : Bool :=
  !e.2.consumed && s.takenSlot != some e.1

/-- R162: the record a READ_RECORD asks for, with its slot. -/
def State.findRecord (s : State) : Option U32 → Option (Nat × LogEntry)
  | some q => s.readLog.find? fun e => e.2.record.seq == q
  | none =>
    (s.readLog.filter s.countsUnconsumed).foldl
      (fun best e =>
        match best with
        | none => some e
        | some b => if e.2.record.seq.toNat < b.2.record.seq.toNat then some e else some b)
      none

/-- R192: the slot state of an entry: UNCONSUMED 2, CONSUMED 3. -/
def LogEntry.stateCode (e : LogEntry) : Nat := if e.consumed then 3 else 2

/-- R192: the items of READ_RECORD. A record whose complete marker is written and whose job has not
completed shows UNCONSUMED and announced (log 67). -/
def State.recordItems (s : State) : Option (Nat × LogEntry) → List Byte
  | none => b1 0
  | some (n, e) =>
    b1 1 ++ e.record.bytes n e.stateCode (s.announced n)
      (e.record.damaged || (s.takenSlot != some n && s.readsDouble (inArea (.slot n))))

/-- R156: the kind of a job. -/
def Job.code : Job → Nat
  | .record _ _ => 1
  | .checkpoint _ _ _ => 2
  | .epochUpdate _ => 3
  | .totalUpdate _ _ _ => 3
  | .consume _ _ => 4
  | .configWrite _ _ _ => 5
  | .lock _ => 6

/-- R164: a capture. -/
def captureItem : Option (Area × Nat) → List Byte
  | none => b1 0 ++ [0xFF, 0xFF]
  | some (a, w) => b1 a.code ++ b2 (a.wordIndex w)

/-- R164. -/
def State.nvItems (s : State) : List Byte :=
  b1 s.nv.sc ++ b1 s.nv.dc ++ captureItem s.nv.scCap ++ captureItem s.nv.dcCap ++
  b1 s.nv.queue.length ++ b1 s.nv.held.length ++ b1 (optCode Job.code s.nv.queue.head?) ++
  b2 (Config.logSlots - s.readLog.length) ++ b2 s.unconsumed ++
  b2 (s.readLog.filter fun e => e.2.consumed).length ++
  b2 s.nv.reservations ++ b2 s.nv.unannounced.length ++ bv32 s.nv.nextSeq ++
  bv32 s.store.highWater ++ bv16 s.store.epoch

end Sys2Proof.Machine
end

