-- ==== Sys2Proof/Machine/Metering.lean ====
section
/-! DEFINITION. The commands of chapter 1: pulses, interval ends, the creep quiet timer. -/

namespace Sys2Proof.Machine

/-- R1: an edge on a channel is counted while intervals run. -/
def Meter.count (m : Meter) (c : Channel) : Meter :=
  if m.interval.isSome then
    match c with
    | .a => { m with chA := Nat.min (m.chA + 1) Config.channelMax }
    | .b => { m with chB := Nat.min (m.chB + 1) Config.channelMax }
  else m

/-- METER_PULSE, R1. -/
def execMeterPulse (h : Hose) (c : Channel) (s : State) : Result :=
  .next (s.modMeter h fun m => m.count c)

/-- What an interval gives its destination (R1, R5 to R8). -/
structure Interval where
  n : Nat
  overrange : Bool
  keff : Nat
  t10 : Int
  status : TempStatus
  factor : Nat
  deriving DecidableEq, Repr

/-- R5: gross increment and residue. -/
def grossStep (n res keff : Nat) : Nat × Nat :=
  ((n * 1000000 + res) / keff, (n * 1000000 + res) % keff)

/-- R8: net increment and residue. -/
def netStep (g factor res : Nat) : Nat × Nat :=
  ((g * factor + res) / 1000000, (g * factor + res) % 1000000)

/-- R9, R10: an interval delivered to a fill; the Bool is the LIMIT request. -/
def Fill.deliver (f : Fill) (x : Interval) : Fill × Bool :=
  let g := grossStep x.n f.grossRes x.keff
  let v := netStep g.1 x.factor f.netRes
  let beyond := decide (Config.volumeMax < f.net + v.1)
  ({ f with gross := (f.gross + g.1) % 4294967296, grossRes := g.2,
            net := Nat.min (f.net + v.1) Config.volumeMax, netRes := v.2,
            tempSum := f.tempSum + (g.1 : Int) * x.t10,
            flags :=
              { f.flags with
                overrange := f.flags.overrange || x.overrange,
                tempDefault := f.flags.tempDefault || x.status == .default,
                limit := f.flags.limit || beyond } },
   beyond && !f.flags.limit)

/-- R14: an accumulation as it opens. -/
def Creep.fresh (t : Tank) (product : Byte) (now : U32) : Creep :=
  { tank := t, product := product, gross := 0, net := 0, grossRes := 0, netRes := 0, tempSum := 0,
    flags := { overrange := false, tempDefault := false, limit := false }, startTime := now,
    quietT := some Config.creepQuietMs, raised := false }

/-- R14, R18: the accumulation of a hose as it opens; a valid HOSES section names a tank. -/
def State.freshCreep (s : State) (h : Hose) : Creep :=
  Creep.fresh ((tankOf (s.hoseCfg h).tank).getD 0) (s.hoseCfg h).product s.clock

/-- R15: an interval delivered to an accumulation. -/
def Creep.deliver (c : Creep) (x : Interval) : Creep :=
  let g := grossStep x.n c.grossRes x.keff
  let v := netStep g.1 x.factor c.netRes
  { c with gross := Nat.min (c.gross + g.1) Config.volumeMax, grossRes := g.2,
           net := Nat.min (c.net + v.1) Config.volumeMax, netRes := v.2,
           tempSum := c.tempSum + (g.1 : Int) * x.t10,
           quietT := if 0 < x.n then some Config.creepQuietMs else c.quietT,
           flags :=
             { overrange := c.flags.overrange || x.overrange,
               tempDefault := c.flags.tempDefault || x.status == .default,
               limit := c.flags.limit || decide (Config.volumeMax < c.gross + g.1) ||
                 decide (Config.volumeMax < c.net + v.1) } }

/-- R44: a checkpoint is queued when the net reaches its mark, which rises. -/
def State.passMark (s : State) (h : Hose) : State :=
  match (s.fill h).nextMark with
  | none => s
  | some m =>
    if m ≤ (s.fill h).net then
      (s.checkpointFill h false).modFill h fun f =>
        { f with nextMark := some (m + Config.checkpointStep) }
    else s

/-- R2, R9, R10: the interval goes to the fill. -/
def State.deliverFill (s : State) (h : Hose) (x : Interval) : State :=
  let first := x.status == .default && !(s.fill h).flags.tempDefault
  let d := (s.fill h).deliver x
  let s := (s.modFill h fun _ => d.1).raiseIf first .temp
  let s := if d.2 then s.endFill h .limit else s
  s.passMark h

/-- R15, R18: an interval delivered to the open accumulation of a hose, which takes the hose's tank
and product as they stand. -/
def State.deliverOpen (s : State) (h : Hose) (c : Creep) (x : Interval) : Creep :=
  { c.deliver x with tank := s.creepTank h c, product := s.creepProduct h c }

/-- R2, R14, R15: the interval goes to the open accumulation, or opens one with n above 0. -/
def State.deliverCreep (s : State) (h : Hose) (x : Interval) : State :=
  match (s.meter h).creep with
  | some c =>
    (s.modMeter h fun m => { m with creep := some (s.deliverOpen h c x) }).raiseIf
      (x.status == .default && !c.flags.tempDefault) .temp
  | none =>
    if 0 < x.n then
      (s.modMeter h fun m => { m with creep := some ((s.freshCreep h).deliver x) }).raiseIf
        (x.status == .default) .temp
    else s

/-- R31, R32, R41: the interval end report reaches the fill. -/
def State.report (s : State) (h : Hose) (n : Nat) : State :=
  let s := if 0 < n then
      s.modFill h fun f =>
        { f with
          noFlowT := f.noFlowT.map fun _ => s.noFlowMs h,
          settleQuietT := if f.state = .settling ∧ f.valveCmd = 0 then some Config.settleQuietMs
                          else f.settleQuietT }
    else s
  let rem := (s.fill h).remaining
  if (s.fill h).dispensing then
    if rem ≤ ((s.hoseCfg h).closeAhead.toNat : Int) then s.endFill h .preset
    else if (s.fill h).state = .flowing ∧ rem ≤ ((s.hoseCfg h).slowDown.toNat : Int) then
      s.modFill h fun f => { f with state := .slowing, rampTarget := s.slowCommand h }
    else s
  else s

/-- R12: the mismatch test of an interval's counts. -/
def State.testMismatch (s : State) (h : Hose) (a b : Nat) : State :=
  let run := (s.meter h).mismatchRun
  if 2 < (a - b) + (b - a) then
    let s := s.modMeter h fun m =>
      { m with mismatchRun := Nat.min (run + 1) Config.mismatchLimit }
    if run + 1 = Config.mismatchLimit then s.raiseHoseFault h fun f => { f with meter := true }
    else s
  else s.modMeter h fun m => { m with mismatchRun := 0 }

/-- R13: the excess-flow test of an interval's count. -/
def State.testExcess (s : State) (h : Hose) (a : Nat) : State :=
  let run := (s.meter h).excessRun
  if (s.hoseCfg h).burst.toNat < a then
    let s := s.modMeter h fun m => { m with excessRun := Nat.min (run + 1) Config.excessLimit }
    if run + 1 = Config.excessLimit then s.raiseBay (.excessFlow h) else s
  else s.modMeter h fun m => { m with excessRun := 0 }

/-- R16: CREEP is raised once, at the interval end at which the gross first exceeds the limit. Where a
reload has lowered the limit below the gross, that is the next interval end that goes to creep, one
without a pulse too (log 75). -/
def State.testCreep (s : State) (h : Hose) : State :=
  match (s.meter h).creep with
  | none => s
  | some c =>
    if (s.hoseCfg h).creepLimit.toNat < c.gross ∧ c.raised = false then
      (s.modMeter h fun m => { m with creep := some { c with raised := true } }).raiseLane h
    else s

/-- R3, R4, R6: the meter at an interval end: counts taken, band, Keff and temperature. The
temperature kept for READ_HOSE is the one used, 150 for an invalid input (log 42). -/
def State.takeInterval (s : State) (h : Hose) (temp : Reading) : State × Interval :=
  let m := s.meter h
  let n := Nat.min m.chA Config.meteredMax
  let band := bandOf (s.hoseCfg h) m.band n
  let keff := if band = m.band then m.keff else s.keffFor h band
  let t := tempOf temp
  (s.modMeter h fun m =>
     { m with chA := 0, chB := 0, interval := some Config.tenthMs, band := band, keff := keff,
              tempStatus := t.2, lastT10 := t.1, lastN := n },
   { n := n, overrange := decide (Config.meteredMax < m.chA), keff := keff, t10 := t.1,
     status := t.2, factor := tempFactor (s.alpha (s.hoseCfg h).product) t.1 })

/-- R1 to R16: an interval end of an operating meter unit. -/
def State.intervalEnd (s : State) (h : Hose) (temp : Reading) : State :=
  let a := (s.meter h).chA
  let b := (s.meter h).chB
  let x := s.takeInterval h temp
  let toFill := (s.fill h).takesVolume
  let s := if toFill then x.1.deliverFill h x.2 else x.1.deliverCreep h x.2
  let s := ((s.report h x.2.n).testMismatch h a b).testExcess h a
  (if toFill then s else s.testCreep h).modMeter h Meter.show

/-- R18: an interval end of a meter unit that does not operate: the pulses are discarded and both
runs are 0; temperature status, t10 and n stay those of the last operating interval (log 43). -/
def Meter.discard (m : Meter) : Meter :=
  { m with chA := 0, chB := 0, interval := some Config.tenthMs, mismatchRun := 0, excessRun := 0 }

/-- MEASUREMENT_INTERVAL_END, R1, R18. -/
def execMeasurementIntervalEnd (h : Hose) (temp : Reading) (s : State) : Result :=
  .next
    (if (s.meter h).interval.isSome then
      if s.sectionValid .hoses && s.sectionValid .products then
        (s.intervalEnd h temp).settle s
      else s.modMeter h fun m => m.discard.show
    else s)

/-- R17: the closed creep that an accumulation becomes, with the hose's tank and product. -/
def State.closedOf (s : State) (h : Hose) (c : Creep) : ClosedCreep :=
  { tank := s.creepTank h c, product := s.creepProduct h c, gross := c.gross, net := c.net,
    tempSum := c.tempSum, startTime := c.startTime, endTime := s.clock, flags := c.flags,
    deferred := false }

/-- R17: an accumulation ends. -/
def State.endCreep (s : State) (h : Hose) (c : Creep) : State :=
  let s' := s.modMeter h fun m => { m with creep := none }
  if c.net = 0 then s' else s'.closeCreep h (s.closedOf h c)

/-- CREEP_QUIET_TIMER_EXPIRY, R17. -/
def execCreepQuietTimerExpiry (h : Hose) (s : State) : Result :=
  .next
    (match (s.meter h).creep with
     | none => s
     | some c => if c.quietT.isSome then (s.endCreep h c).offerCreep else s)

end Sys2Proof.Machine
end

