-- ==== Sys2Proof/Machine/Fills.lean ====
section
/-! DEFINITION. The commands of chapter 2: the nozzle hook, the fill timers, the valve, and the
requests on a fill. -/

namespace Sys2Proof.Machine

/-! ## Nozzle hook (R20) -/

/-- R20: the raw position changes; it must hold for 100 ms to be taken. -/
def Hook.change (k : Hook) (off : Bool) : Hook :=
  if k.raw = off then k
  else { k with raw := off,
                timer := if k.debounced = some off then none else some Config.tenthMs }

/-- HOOK_SWITCH_CHANGE, R20. -/
def execHookSwitchChange (h : Hose) (off : Bool) (s : State) : Result :=
  .next (s.modHose h fun u => { u with hook := u.hook.change off })

/-- R20: the position held for 100 ms is taken up. -/
def Hook.takeUp (k : Hook) : Hook := { k with debounced := some k.raw, timer := none }

/-- R24: the entry to STARTING. -/
def Fill.start (f : Fill) : Fill :=
  { f with state := .starting, armT := none, startT := some Config.startMs, valveCmd := 0,
           rampTarget := 0 }

/-- R23: a lift reaches the fill. -/
def State.liftFill (s : State) (h : Hose) : State :=
  if (s.fill h).state = .armed then s.modFill h Fill.start else s

/-- R25, R37: a hang reaches the fill. -/
def State.hangFill (s : State) (h : Hose) : State :=
  if (s.fill h).state = .starting ∨ (s.fill h).running then s.endFill h .nozzleHung else s

/-- LIFT, R20, R23, R48. -/
def execLift (h : Hose) (s : State) : Result :=
  let k := s.hoses[h].hook
  .next
    (if k.timer.isSome ∧ k.raw = true then
      let s' := s.modHose h fun u => { u with hook := u.hook.takeUp }
      if k.debounced = some false then
        let s' := s'.liftFill h
        (if h = 0 then s'.activate else s').settle s
      else s'
    else s)

/-- HANG, R20, R25, R37, R59: the fill takes it before the tag interface. -/
def execHang (h : Hose) (s : State) : Result :=
  let k := s.hoses[h].hook
  .next
    (if k.timer.isSome ∧ k.raw = false then
      let s' := s.modHose h fun u => { u with hook := u.hook.takeUp }
      if k.debounced = some true then
        let s' := s'.hangFill h
        (if h = 0 then s'.deactivate else s').settle s
      else s'
    else s)

/-! ## Fill timers -/

/-- ARM_TIMER_EXPIRY, R23. -/
def execArmTimerExpiry (h : Hose) (s : State) : Result :=
  .next
    (if (s.fill h).state = .armed ∧ (s.fill h).armT.isSome then
      (s.disarm h .armTimeout).settle s
    else s)

/-- R25: the start timer finds the pump conditions unmet. -/
def State.startFailsOnPump (s : State) (h : Hose) : Bool :=
  match (s.fill h).tank with
  | none => true
  | some t => !s.pumpCondition t

/-- START_TIMER_EXPIRY, R25. -/
def execStartTimerExpiry (h : Hose) (s : State) : Result :=
  .next
    (if (s.fill h).state = .starting ∧ (s.fill h).startT.isSome then
      (if s.startFailsOnPump h then (s.disarm h .pumpNotReady).raise .pump
       else (s.disarm h .tagNotReady).raise .tag).settle s
    else s)

/-- NO_FLOW_TIMER_EXPIRY, R32. -/
def execNoFlowTimerExpiry (h : Hose) (s : State) : Result :=
  .next
    (if (s.fill h).dispensing ∧ (s.fill h).noFlowT.isSome then (s.endFill h .noFlow).settle s
     else s)

/-- HOLD_TIMER_EXPIRY, R35. -/
def execHoldTimerExpiry (h : Hose) (s : State) : Result :=
  .next
    (if (s.fill h).state = .held ∧ (s.fill h).holdT.isSome then
      (s.endFill h .holdTimeout).settle s
    else s)

/-- TAG_LOSS_TIMER_EXPIRY, R35. -/
def execTagLossTimerExpiry (h : Hose) (s : State) : Result :=
  .next
    (if (s.fill h).state = .held ∧ (s.fill h).tagLossT.isSome then
      (s.endFill h .holdTimeout).settle s
    else s)

/-- SETTLE_QUIET_TIMER_EXPIRY, R41. -/
def execSettleQuietTimerExpiry (h : Hose) (s : State) : Result :=
  .next
    (if (s.fill h).state = .settling ∧ (s.fill h).settleQuietT.isSome then
      (s.enterClosing h).settle s
    else s)

/-- SETTLE_LIMIT_TIMER_EXPIRY, R41. -/
def execSettleLimitTimerExpiry (h : Hose) (s : State) : Result :=
  .next
    (if (s.fill h).state = .settling ∧ (s.fill h).settleLimitT.isSome then
      let s' := s.modFill h fun f => { f with flags := { f.flags with settleTimeout := true } }
      (s'.enterClosing h).settle s
    else s)

/-! ## The valve (R28, R118) -/

/-- R28, R32, R41: one ramp tick of a fill toward its target. -/
def Fill.tick (f : Fill) (target minimum up down noFlow : Nat) : Fill :=
  let cmd := if f.released ∨ target = 0 then rampStep f.valveCmd target minimum up down
    else f.valveCmd
  let f' := { f with rampTarget := target, valveCmd := cmd }
  { f' with
    noFlowT := noFlowTimer f' minimum noFlow,
    settleQuietT :=
      if f.state = .settling ∧ cmd = 0 then f.settleQuietT <|> some Config.settleQuietMs
      else f.settleQuietT }

/-- R118: the feedback differs from the command by more than 100 per mille. -/
def disagrees (cmd : Nat) : Reading → Bool
  | .value v => decide ((Config.valveTolerance : Int) < v - cmd) ||
      decide ((Config.valveTolerance : Int) < cmd - v)
  | .openLine => true
  | .shorted => true

/-- R118: the comparison of one ramp tick. -/
def ValveWatch.compare (w : ValveWatch) (differs : Bool) : ValveWatch :=
  if differs then { w with timer := if w.present then none else w.timer <|> some Config.valveMs }
  else { timer := none, present := false }

/-- RAMP_TICK, R28, R118. With the HOSES section invalid step-down and minimum opening are free values
(log 58). The feedback is compared with the command after the step of this tick (log 61). -/
def execRampTick (h : Hose) (feedback : Reading) (s : State) : Result :=
  .next
    (if s.hoses[h].ramp.isSome then
      let c := s.hoseCfg h
      let s := s.modFill h fun f =>
        f.tick (s.valveTarget h f.state) (s.minOpening h) c.stepUp.toNat (s.stepDown h)
          (s.noFlowMs h)
      s.modHose h fun u =>
        { u with ramp := some Config.tenthMs,
                 valve := u.valve.compare (disagrees u.fill.valveCmd feedback) }
    else s)

/-- VALVE_DISAGREEMENT_TIMER_EXPIRY, R118. -/
def execValveDisagreementTimerExpiry (h : Hose) (s : State) : Result :=
  .next
    (if s.hoses[h].valve.timer.isSome then
      let s' := s.modHose h fun u => { u with valve := { timer := none, present := true } }
      (s'.raiseHoseFault h fun f => { f with valve := true }).settle s
    else s)

/-! ## Requests on a fill -/

/-- R21, R183: the lane is OPEN and no close is pending. -/
def State.laneOpen (s : State) : Bool := !s.laneClosed && !s.closePending

/-- R183: the lane's part of R21, and R45: the hose's fill is IDLE. -/
def State.hoseFree (s : State) (h : Hose) : Bool := s.laneOpen && !(s.fill h).beyondIdle

/-- R21: the tank of the hose has its home station SILENT. -/
def State.hoseSilent (s : State) (h : Hose) : Bool :=
  match tankOf (s.hoseCfg h).tank with
  | none => false
  | some t => s.homeSilent t

/-- R21: the visit may arm the hose. -/
def State.visitMayArm (s : State) (h : Hose) (override : Bool) : Bool :=
  s.visit.state == .opened && s.hoses[h].override.isNone && !(h == 0 && s.visit.barred) &&
    !(override && s.visit.origin == some .manual && s.visit.hours.isNone)

/-- R21: the checks of ARM_HOSE after the hose number. -/
def State.armChecks (s : State) (h : Hose) (override : Bool) (preset : Nat) :
    List (Bool × Reason) :=
  [(decide (preset ≤ Config.volumeMax), .range), (!s.cfg.fault, .configFault),
   (!s.shutdownStands, .shutdown), (!s.hoseFaulted h, .hoseFault),
   (s.hoseFree h && s.visitMayArm h override, .state), (!s.hoseSilent h, .homeSilent),
   (!s.logFull, .logFull), ((s.allowance h override).isSome, .reserve)]

/-- R22: the machine fields a fill takes from the visit. -/
def State.visitFields (s : State) : MachineFields :=
  { machineId := s.visit.machineId.getD 0, cls := s.visit.cls, hours := s.visit.hours,
    manual := s.visit.origin == some .manual }

/-- R22, R45: the fill context of an armed hose. An item that R22 does not list takes R46's value, but
for the valve command, the ramp target and the last outcome, which stand (log 59). -/
def State.armedFill (s : State) (h : Hose) (kind : FillKind) (machine : Option MachineFields)
    (preset : Nat) (override : Bool) (f : Fill) : Fill :=
  { Fill.reset with
    state := .armed, kind := some kind, tank := tankOf (s.hoseCfg h).tank,
    product := some (s.hoseCfg h).product,
    lubeSlot := if s.isLube (s.hoseCfg h).product then s.lubeSlotNow h else none,
    machine := machine, preset := some preset, valveCmd := f.valveCmd, rampTarget := f.rampTarget,
    flags :=
      { FillFlags.clear with
        override := override,
        manual := (match machine with
          | none => false
          | some m => m.manual) },
    armT := some Config.armMs, lastOutcome := f.lastOutcome }

/-- R22: a hose is armed; with the nozzle off the hook the fill moves on to STARTING at once. A nozzle
whose first position after the reset is not yet taken up (R20) is not off the hook: the fill stays in
ARMED, and that position, taken up later, is no lift (log 83). -/
def State.arm (s : State) (h : Hose) (kind : FillKind) (machine : Option MachineFields)
    (preset : Nat) (override : Bool) : State :=
  let s := s.modFill h fun f => s.armedFill h kind machine preset override f
  let s := s.modNv fun n => { n with reservations := n.reservations + 1 }
  if s.hoses[h].hook.debounced = some true then s.liftFill h else s

/-- R22: the preset of an accepted ARM_HOSE; 0 is no terminal preset. An allowance above 9,999,999 mL
stands as it is (log 76). -/
def armPreset (allowance preset : Nat) : Nat :=
  if preset = 0 then allowance else Nat.min allowance preset

/-- R21, R22: the rule of ARM_HOSE. -/
def State.armRule (s : State) (hose options : Byte) (preset : U32) : State × Answer :=
  match hoseOf hose with
  | none => (s, .refused .range)
  | some h =>
    let override := options.getLsbD 0
    let p := armPreset ((s.allowance h override).getD 0) preset.toNat
    guarded (s.armChecks h override preset.toNat) s
      ((s.arm h .fill (some s.visitFields) p override).settle s, .done (b4 p))

/-- ARM_HOSE, R21, R22. -/
def execArmHose (hose options : Byte) (preset : U32) (s : State) : Result :=
  .next (s.request 0x09 6 fun s => s.armRule hose options preset)

/-- R45: the checks of PROVER_ARM after the hose number. -/
def State.proverChecks (s : State) (h : Hose) (preset : Nat) : List (Bool × Reason) :=
  [(decide (1 ≤ preset) && decide (preset ≤ Config.volumeMax), .range),
   (!s.cfg.fault, .configFault), (!s.shutdownStands, .shutdown), (!s.hoseFaulted h, .hoseFault),
   (s.hoseFree h && s.hoses[h].override.isSome, .state), (!s.hoseSilent h, .homeSilent),
   (!s.logFull, .logFull),
   ((match tankOf (s.hoseCfg h).tank with
     | none => true
     | some t => s.views[t].state != .lowLow), .reserve)]

/-- R45: the rule of PROVER_ARM. -/
def State.proverRule (s : State) (hose : Byte) (preset : U32) : State × Answer :=
  match hoseOf hose with
  | none => (s, .refused .range)
  | some h =>
    guarded (s.proverChecks h preset.toNat) s
      ((s.arm h .prover none preset.toNat false).settle s, .done (b4 preset.toNat))

/-- PROVER_ARM, R45. -/
def execProverArm (hose : Byte) (preset : U32) (s : State) : Result :=
  .next (s.request 0x29 5 fun s => s.proverRule hose preset)

/-- STOP_HOSE, R36. -/
def execStopHose (hose : Byte) (s : State) : Result :=
  .next (s.request 0x0A 1 fun s =>
    match hoseOf hose with
    | none => (s, .refused .range)
    | some h =>
      guarded [((s.fill h).waits || (s.fill h).running, .state)] s
        ((s.endFill h .operatorStop).settle s, .done []))

/-- PAUSE_HOSE, R36. -/
def execPauseHose (hose : Byte) (s : State) : Result :=
  .next (s.request 0x0B 1 fun s =>
    match hoseOf hose with
    | none => (s, .refused .range)
    | some h =>
      guarded [((s.fill h).running, .state)] s ((s.enterHold h .operator), .done []))

/-- RESUME_HOSE, R36. -/
def execResumeHose (hose : Byte) (s : State) : Result :=
  .next (s.request 0x0C 1 fun s =>
    match hoseOf hose with
    | none => (s, .refused .range)
    | some h =>
      guarded [((s.fill h).running && (s.fill h).holds.operator, .state)] s
        ((s.leaveHold h .operator), .done []))

/-- READ_HOSE, R46. A hose number outside 0..3 is refused with RANGE, as the other requests that name a
hose refuse it (log 88). -/
def execReadHose (hose : Byte) (s : State) : Result :=
  .next (s.judge 0x03 1 fun s =>
    match hoseOf hose with
    | none => (s.taken, .refused .range)
    | some h => (s.taken, .done (s.hoseItems h)))

end Sys2Proof.Machine
end

