-- ==== Sys2Proof/Machine/Receive.lean ====
section
/-! DEFINITION. Taking a frame from the receive queue (R146, R150). -/

namespace Sys2Proof.Machine

/-- R150: a frame that carries the own number. -/
def State.ownFrame (s : State) : State :=
  ((s.modCounts fun c => { c with ownFrames := sat16 c.ownFrames }).setDuplicate).settle s

/-- R146: the frame at the front of the receive queue leaves it and is applied by its owner, when
it is of the kind named; a frame with the own number goes no further than R150. While the STATION
section is invalid no number is the own one (R152), and a frame with the former own number is applied
as another station's (log 85). -/
def State.takeFrame (s : State) (kind : Nat) (apply : Station → List Byte → State → State) :
    State :=
  match s.link.rxQueue with
  | [] => s
  | f :: rest =>
    if f.kind = kind then
      let s := s.modLink fun l => { l with rxQueue := rest }
      if s.ownNumber = some f.station then s.ownFrame else apply f.station f.payload s
    else s

end Sys2Proof.Machine
end

