-- ==== Sys2Proof/Machine/TagCmds.lean ====
section
/-! DEFINITION. The commands of chapter 3: the tag interface's timers, bytes and samples, and
RESET_TAG_INTERFACE. -/

namespace Sys2Proof.Machine

/-- FIELD_STABLE_TIME_EXPIRY, R49. -/
def execFieldStableTimeExpiry (present : Bool) (s : State) : Result :=
  .next
    (if s.tag.act = .powering ∧ s.tag.fieldT.isSome then
      s.modTag fun t => if present then t.wake else t.noTag
    else s)

/-- TAG_RETRY_TIMER_EXPIRY, R49. A hose 0 without a debounced position is not off the hook (log 83). -/
def execTagRetryTimerExpiry (s : State) : Result :=
  .next
    (if s.tag.act = .waitingNoTag ∧ s.tag.retryT.isSome then
      if s.mayActivate ∧ s.hoses[(0 : Hose)].hook.debounced = some true then s.modTag Tag.power
      else s.modTag fun t => { t with retryT := none }
    else s)

/-- TAG_SEND_COMPLETE, R52. -/
def execTagSendComplete (s : State) : Result :=
  .next (if s.tag.sending then s.modTag Tag.sent else s)

/-- TAG_BYTE_RECEIVED, R50. -/
def execTagByteReceived (byte : Byte) (parity : Bool) (s : State) : Result :=
  .next (if s.tag.listens then s.modTag fun t => t.receive byte parity else s)

/-- TAG_ANSWER_TIMEOUT, R50. -/
def execTagAnswerTimeout (s : State) : Result :=
  .next (if s.tag.listens ∧ s.tag.windowT.isSome then (s.failExchange .timeout).settle s else s)

/-- TAG_ANSWER_END, R50. -/
def execTagAnswerEnd (s : State) : Result :=
  .next (if s.tag.listens ∧ s.tag.gapT.isSome then s.judgeAnswer.settle s else s)

/-- TAG_PRESENCE_SAMPLE, R54, R57. -/
def execTagPresenceSample (present : Bool) (s : State) : Result :=
  .next
    (if s.tag.sampleT.isSome then
      let s' := s.modTag fun t => { t with sampleT := some Config.tenthMs }
      match s.tag.act with
      | .ready => (s'.sampleReady present).settle s
      | .lost => s'.modTag fun t => t.sampleLost present
      | .waitingFaulted => s'.modTag fun t => t.sampleFaulted present
      | .off => s
      | .powering => s
      | .waitingNoTag => s
      | .resetting => s
      | .exchanging => s
    else s)

/-- RESET_TAG_INTERFACE, R60. -/
def execResetTagInterface (s : State) : Result :=
  .next (s.request 0x1A 0 fun s => (s.deactivate.reactivate.settle s, .done []))

end Sys2Proof.Machine
end

