-- ==== Sys2Proof/Machine/Visits.lean ====
section
/-! DEFINITION. The commands of chapter 4: visits, the account table's reads and frames. -/

namespace Sys2Proof.Machine

/-- R66: the checks of OPEN_MANUAL_VISIT. -/
def State.manualChecks (s : State) (m hours : U32) : List (Bool × Reason) :=
  [(m != 0 && (hours == 0xFFFFFFFF || decide (hours.toNat ≤ Config.hoursMax)), .range),
   (!s.cfg.fault, .configFault), (!s.link.dupStation, .shutdown),
   (s.laneOpen && s.visit.state == .none, .state), (!s.shownByPeer m, .tagInUse)]

/-- R66: the last visit outcome a refusal leaves. -/
def refusedOutcome (r : Reason) (old : Option VisitOutcome) : Option VisitOutcome :=
  match r with
  | .tagInUse => some .tagInUse
  | .configFault => some .configFault
  | .shutdown => some .duplicateStation
  | _ => old

/-- R66: an accepted manual visit enters QUERYING. -/
def State.openManual (s : State) (m hours : U32) : State :=
  { s with
    visit :=
      { Visit.reset with
        state := .identifying, origin := some .manual, machineId := some m,
        hours := optU32 hours, lastOutcome := s.visit.lastOutcome } }.enterQuerying

/-- R66: the rule of OPEN_MANUAL_VISIT. -/
def State.manualRule (s : State) (m hours : U32) : State × Answer :=
  match firstFailure (s.manualChecks m hours) with
  | some r =>
    ((s.modVisit fun v => { v with lastOutcome := refusedOutcome r v.lastOutcome }).raise .visit,
     .refused r)
  | none => ((s.openManual m hours).settle s, .done [])

/-- OPEN_MANUAL_VISIT, R66. -/
def execOpenManualVisit (m hours : U32) (s : State) : Result :=
  .next (s.request 0x06 8 fun s => s.manualRule m hours)

/-- CLOSE_VISIT, R72. -/
def execCloseVisit (s : State) : Result :=
  .next (s.request 0x07 0 fun s =>
    guarded [(s.visit.state != .none, .state)] s ((s.endVisit .closed).settle s, .done []))

/-- READ_VISIT, R61, R76. -/
def execReadVisit (s : State) : Result :=
  .next (s.readRequest 0x08 0 fun s => s.visit.items ++ s.tag.items)

/-- READ_ACCOUNT, R76. -/
def execReadAccount (m : U32) (s : State) : Result :=
  .next (s.readRequest 0x0D 4 fun s => s.accounts.foundItems (s.accounts.find m))

/-- READ_ACCOUNT_AT, R76. -/
def execReadAccountAt (position : Byte) (s : State) : Result :=
  .next (s.request 0x0E 1 fun s =>
    guarded [(decide (position.toNat < Config.accountPositions), .range)] s
      (s, .done (s.accounts.positionItems (s.accounts.at? position.toNat))))

/-- QUERY_TIMER_EXPIRY, R71. -/
def execQueryTimerExpiry (s : State) : Result :=
  .next
    (if s.visit.state = .querying ∧ s.visit.queryT.isSome then s.openVisit.settle s else s)

/-- IDLE_TIMER_EXPIRY, R72. -/
def execIdleTimerExpiry (s : State) : Result :=
  .next
    (if s.visit.state = .opened ∧ s.visit.idleT.isSome then
      (s.endVisit .idleTimeout).settle s
    else s)

/-- R79: a summary of a station: dropped unless its sequence is above the last one. -/
def State.takeSummary (s : State) (p : Station) (f : SummaryFields) : State :=
  if f.seq.toNat ≤ s.accounts.lastSummary[p].toNat then s
  else
    (s.modAccounts fun a => { a with lastSummary := put a.lastSummary p f.seq }).applySummary f

/-- FILL_SUMMARY_TAKEN, R79. -/
def execFillSummaryTaken (s : State) : Result :=
  .next (s.takeFrame 4 fun p l s => s.takeSummary p (summaryOf l))

/-- R70: an account query is answered when the machine is held, in two frames (R189). -/
def State.answerQuery (s : State) (m : U32) : State :=
  match s.accounts.find m with
  | none => s
  | some (_, a) => s.modLink fun l => (l.offer (.reply1 a)).offer (.reply2 a)

/-- ACCOUNT_QUERY_TAKEN, R70. -/
def execAccountQueryTaken (s : State) : Result :=
  .next (s.takeFrame 5 fun _ l s => s.answerQuery (u32At l 0))

/-- ACCOUNT_REPLY_TAKEN, R69. -/
def execAccountReplyTaken (s : State) : Result :=
  .next (s.takeFrame 6 fun p l s => s.applyReply p l)

end Sys2Proof.Machine
end

