-- ==== Sys2Proof/Machine/Tanks.lean ====
section
/-! DEFINITION. The commands of chapter 5: samples, GAUGE frames, reconciliation, receipts and
the tank view. -/

namespace Sys2Proof.Machine

/-- PROBE_SAMPLE, R86. The α of the product is a free value while the PRODUCTS section is invalid
(log 46). -/
def execProbeSample (t : Tank) (level temp : Reading) (s : State) : Result :=
  .next
    (match s.home[t] with
     | none => s
     | some u =>
       if u.sampleT.isSome then
         let s' := s.modHome t fun u => { u with sampleT := some Config.probeMs }
         if s.sectionValid .tanks then
           let u' := ({ u with sampleT := some Config.probeMs }).sample (s.tankCfg t)
             (s.alpha (s.tankCfg t).product) level temp
           (s'.commitHome t u' u'.firstFrame).settle s
         else s'
       else s)

/-- GAUGE_PERIOD_EXPIRY, R91. -/
def execGaugePeriodExpiry (t : Tank) (s : State) : Result :=
  .next
    (match s.home[t] with
     | none => s
     | some u =>
       if u.gaugeT.isSome then
         (s.modHome t fun u => { u with gaugeT := some Config.gaugeMs }).offerGauge t
       else s)

/-- R99: an evaluation's effect: a change raises, and a new LOSS_ALARM raises STOCK_LOSS. -/
def State.evaluateHome (s : State) (t : Tank) (u : HomeUnit) : State :=
  let u' := u.evaluate
  let s := s.commitHome t u' false
  if u.recon ≠ .lossAlarm ∧ u'.recon = .lossAlarm then s.raiseBay .stockLoss else s

/-- RECONCILIATION_EVALUATION, R99. -/
def execReconciliationEvaluation (t : Tank) (s : State) : Result :=
  .next
    (match s.home[t] with
     | none => s
     | some u =>
       if u.evalT.isSome then
         let u' := { u with evalT := some Config.evaluationMs }
         let s' := s.modHome t fun _ => u'
         if s.sectionValid .tanks then (s'.evaluateHome t u').settle s else s'
       else s)

/-- R101: the checks of RECEIPT_START after the tank number. -/
def State.receiptStartChecks (s : State) (t : Tank) : List (Bool × Reason) :=
  [(!s.cfg.fault, .configFault), (s.isHome t, .notHome),
   ((match s.home[t] with
     | none => false
     | some u => u.recon == .balanced || u.recon == .watch), .state),
   (!s.logFull, .logFull)]

/-- R101: an accepted RECEIPT_START. -/
def State.startReceipt (s : State) (t : Tank) (u : HomeUnit) : State :=
  (s.modNv fun n => { n with reservations := n.reservations + 1 }).commitHome t
    (u.beginReceipt s.clock) false

/-- R101: the rule of RECEIPT_START. -/
def State.receiptStartRule (s : State) (tank : Byte) : State × Answer :=
  match tankOf tank with
  | none => (s, .refused .range)
  | some t =>
    match s.home[t] with
    | none => guarded (s.receiptStartChecks t) s (s, .done [])
    | some u =>
      guarded (s.receiptStartChecks t) s
        ((s.startReceipt t u).settle s, .done (b4 ((u.gauged.map Gauged.litres).getD 0)))

/-- RECEIPT_START, R101. -/
def execReceiptStart (tank : Byte) (s : State) : Result :=
  .next (s.request 0x11 1 fun s => s.receiptStartRule tank)

/-- R102: the checks of RECEIPT_END after the tank number. -/
def State.receiptEndChecks (s : State) (t : Tank) : List (Bool × Reason) :=
  [(!s.cfg.fault, .configFault), (s.isHome t, .notHome),
   ((s.home[t].bind HomeUnit.receipt).isSome, .state)]

/-- R102: an accepted RECEIPT_END. -/
def State.endReceipt (s : State) (t : Tank) (u : HomeUnit) (r : Receipt) : State :=
  let s := s.offerJob
    (.record .receipt (u.receiptRecord t r s.clock))
  (s.commitHome t u.endReceipt false).raise .stock

/-- R102: the rule of RECEIPT_END. -/
def State.receiptEndRule (s : State) (tank : Byte) : State × Answer :=
  match tankOf tank with
  | none => (s, .refused .range)
  | some t =>
    match s.home[t], s.home[t].bind HomeUnit.receipt with
    | some u, some r =>
      guarded (s.receiptEndChecks t) s
        ((s.endReceipt t u r).settle s,
         .done (beInt 4 (r.received ((u.gauged.map Gauged.litres).getD 0))))
    | _, _ => guarded (s.receiptEndChecks t) s (s, .done [])

/-- RECEIPT_END, R102. -/
def execReceiptEnd (tank : Byte) (s : State) : Result :=
  .next (s.request 0x12 1 fun s => s.receiptEndRule tank)

/-- READ_TANK_VIEW, R103, R115. -/
def execReadTankView (tank : Byte) (s : State) : Result :=
  .next (s.judge 0x04 1 fun s =>
    match tankOf tank with
    | none => (s.taken, .refused .range)
    | some t => (s.taken, .done (s.tankItems t)))

/-- R93: the gauge fields of a received frame. -/
def gaugeOf (p : List Byte) : GaugeFields :=
  let marks := u8At p 9
  { gauged := if marks.getLsbD 4 then none else some (u32At p 1).toNat,
    level := (u16At p 5).toNat, state := stockStateOf (u8At p 7),
    recon := reconStateOf (u8At p 8), degraded := marks.getLsbD 1,
    overStrap := marks.getLsbD 2, tempDefault := marks.getLsbD 3 }

/-- R93: a view takes a received frame; its receipt flag is the mark. -/
def TankView.applyFrame (v : TankView) (p : List Byte) (now : U32) : TankView :=
  let v' := v.apply (gaugeOf p) now
  { v' with lastGauge := v'.lastGauge.map fun g => { g with receipt := (u8At p 9).getLsbD 0 } }

/-- R114: the pump view a GAUGE frame leaves: in LOCKED_OUT with the reason that the view holds. -/
def gaugePump (old : PumpView) (st : PumpState) : PumpView :=
  match st, old with
  | .lockedOut, .known _ r => .known .lockedOut r
  | x, _ => .known x none

/-- R114: a remote pump view takes a state; LOCKED_OUT newly taken sets the PUMP flag. -/
def State.takePumpView (s : State) (t : Tank) (v : PumpView) : State :=
  let was := s.views[t].pump.lockedOut
  (s.setPumpView t v).raiseIf (v.lockedOut && !was) .pump

/-- R93, R114: a frame of a tank from a station that is not its home station. -/
def State.foreignGauge (s : State) (t : Tank) : State :=
  s.modView t fun v => { v with foreign := sat16 v.foreign }

/-- R93: a GAUGE frame of a station, arrived when it is taken from the receive queue (log 47). The
pump view of a tank homed here is its controller's, and no frame moves it (R113, R114, log 57). -/
def State.takeGauge (s : State) (p : Station) (l : List Byte) : State :=
  match tankOf (u8At l 0) with
  | none => s
  | some t =>
    if s.cfg.homeOf[t] = some p then
      let s := s.changeView t fun v => v.applyFrame l s.clock
      if s.isHome t then s
      else s.takePumpView t (gaugePump s.views[t].pump (pumpStateOf (u8At l 10)))
    else s.foreignGauge t

/-- GAUGE_FRAME_TAKEN, R93. -/
def execGaugeFrameTaken (s : State) : Result :=
  .next (s.takeFrame 3 fun p l s' => (s'.takeGauge p l).settle s')

end Sys2Proof.Machine
end

