-- ==== Sys2Proof/Machine/Pumps.lean ====
section
/-! DEFINITION. The commands of chapter 6: demand, the pump timers, the pressure feedback, PUMP
frames and CLEAR_PUMP_LOCKOUT. -/

namespace Sys2Proof.Machine

/-- The pump state of a tank, where a controller runs. -/
def State.pumpState (s : State) (t : Tank) : Option PumpState := s.pumps[t].map Pump.state

/-- A timer of a controller runs. -/
def State.pumpTimer (s : State) (t : Tank) (f : Pump → Timer) : Bool :=
  (s.pumps[t].bind f).isSome

/-- DEMAND_EXPIRY_TIMER_EXPIRY, R105. -/
def execDemandExpiryTimerExpiry (t : Tank) (p : Station) (s : State) : Result :=
  .next ((s.dropDemand t p).settle s)

/-- R109: the pressure-loss timer at a change of the feedback. -/
def Pump.watch (p : Pump) (on : Bool) : Pump :=
  { p with lossT := if on then none else p.lossT <|> some Config.pressureLossMs }

/-- R108, R109: the feedback's change reaches the controller. -/
def State.pressureMoves (s : State) (t : Tank) (on : Bool) : State :=
  match s.pumpState t with
  | some .starting => if on then s.confirmPump t else s
  | some .running => s.modPump t fun p => p.watch on
  | some .runOn => s.modPump t fun p => p.watch on
  | some .stopped => s
  | some .resting => s
  | some .lockedOut => s
  | none => s

/-- PRESSURE_FEEDBACK_CHANGE, R108, R109. -/
def execPressureFeedbackChange (t : Tank) (on : Bool) (s : State) : Result :=
  .next
    (if s.pressure[t] = on then s
     else (({ s with pressure := put s.pressure t on }).pressureMoves t on).settle s)

/-- PUMP_START_TIMER_EXPIRY, R108. -/
def execPumpStartTimerExpiry (t : Tank) (s : State) : Result :=
  .next
    (if s.pumpState t = some .starting ∧ s.pumpTimer t Pump.startT then
      (s.lockPump t .noPressure).settle s
    else s)

/-- PRESSURE_LOSS_TIMER_EXPIRY, R109. -/
def execPressureLossTimerExpiry (t : Tank) (s : State) : Result :=
  .next
    (if (s.pumpState t = some .running ∨ s.pumpState t = some .runOn) ∧ s.pumpTimer t Pump.lossT
     then (s.lockPump t .pressureLost).settle s
     else s)

/-- RUN_ON_TIMER_EXPIRY, R109. -/
def execRunOnTimerExpiry (t : Tank) (s : State) : Result :=
  .next
    (if s.pumpState t = some .runOn ∧ s.pumpTimer t Pump.runOnT then (s.restPump t).settle s
     else s)

/-- REST_TIMER_EXPIRY, R107. -/
def execRestTimerExpiry (t : Tank) (s : State) : Result :=
  .next
    (if s.pumpState t = some .resting ∧ s.pumpTimer t Pump.restT then (s.endRest t).settle s
     else s)

/-- R112: the checks of CLEAR_PUMP_LOCKOUT after the tank number. -/
def State.lockoutChecks (s : State) (t : Tank) : List (Bool × Reason) :=
  [(s.isHome t, .notHome), (s.pumpState t == some .lockedOut, .state), (!s.homeLow t, .state)]

/-- CLEAR_PUMP_LOCKOUT, R112. -/
def execClearPumpLockout (tank : Byte) (s : State) : Result :=
  .next (s.request 0x13 1 fun s =>
    match tankOf tank with
    | none => (s, .refused .range)
    | some t =>
      guarded (s.lockoutChecks t) s (((s.restPump t).raise .pump).settle s, .done []))

/-- R114: the pump view a PUMP frame carries. -/
def pumpViewOf (p : List Byte) : PumpView :=
  .known (pumpStateOf (u8At p 1)) (lockReasonOf (u8At p 2))

/-- R114: a PUMP frame of a station. For a tank homed here no other station is its home, and the frame
is a foreign one (log 57). -/
def State.takePump (s : State) (p : Station) (l : List Byte) : State :=
  match tankOf (u8At l 0) with
  | none => s
  | some t =>
    if s.cfg.homeOf[t] = some p ∧ s.isHome t = false then s.takePumpView t (pumpViewOf l)
    else s.foreignGauge t

/-- PUMP_FRAME_TAKEN, R114. -/
def execPumpFrameTaken (s : State) : Result :=
  .next (s.takeFrame 2 fun p l s' => (s'.takePump p l).settle s')

end Sys2Proof.Machine
end

