-- ==== Sys2Proof/Machine/Shutdowns.lean ====
section
/-! DEFINITION. The commands of chapter 7: bay inputs, SPILL and RESTORE frames, and the clearing
requests. -/

namespace Sys2Proof.Machine

/-! ## Bay inputs (R117) -/

/-- R117: the input unit of a bay input. -/
def Shutdown.input (x : Shutdown) : BayInput → InputUnit
  | .estop => x.estop
  | .sump => x.sump
  | .bund t => x.bund[t]

/-- R117: the input unit of a bay input replaced. -/
def Shutdown.setInput (x : Shutdown) (i : BayInput) (u : InputUnit) : Shutdown :=
  match i with
  | .estop => { x with estop := u }
  | .sump => { x with sump := u }
  | .bund t => { x with bund := put x.bund t u }

/-- R117: the cause of a bay input. -/
def inputCause : BayInput → BayCause
  | .estop => .estop
  | .sump => .sump
  | .bund t => .bund t

/-- R117: the debounce time of a bay input, ms. -/
def debounceMs : BayInput → Nat
  | .estop => Config.estopMs
  | .sump => Config.floatMs
  | .bund _ => Config.floatMs

/-- R117: the input is read: a bund sensor only at its home station. -/
def State.inputRead (s : State) : BayInput → Bool
  | .estop => true
  | .sump => true
  | .bund t => s.isHome t

/-- R117, R132: the raw input changes. Whether it has been active since the reset is judged from the
reset, for a bund input too, which is first read at the load (log 62). -/
def InputUnit.change (u : InputUnit) (active read : Bool) (ms : Nat) : InputUnit :=
  if u.raw = active then u
  else { u with raw := active, sinceReset := u.sinceReset && active,
                timer := if read && active != u.debounced then some ms else none }

/-- R117: a line that reads open or shorted is read as active. -/
def readsActive : LineReading → Bool
  | .normal => false
  | .active => true
  | .openLine => true
  | .shorted => true

/-- BAY_INPUT_CHANGE, R117. -/
def execBayInputChange (i : BayInput) (line : LineReading) (s : State) : Result :=
  .next (s.modShut fun x =>
    x.setInput i ((x.input i).change (readsActive line) (s.inputRead i) (debounceMs i)))

/-- BAY_INPUT_DEBOUNCE_EXPIRY, R117. -/
def execBayInputDebounceExpiry (i : BayInput) (s : State) : Result :=
  .next
    (let u := s.shut.input i
     if u.timer.isSome then
       let s' := s.modShut fun x => x.setInput i { u with debounced := u.raw, timer := none }
       (if u.raw then s'.raiseBay (inputCause i) else s').settle s
     else s)

/-! ## Clearing requests -/

/-- R120: a cause in the hose fault set is present. -/
def State.hoseCausePresent (s : State) (h : Hose) : Bool :=
  (s.hoses[h].faults.meter && (s.meter h).mismatchRun == Config.mismatchLimit) ||
    (s.hoses[h].faults.valve && s.hoses[h].valve.present)

/-- R120: an accepted CLEAR_HOSE_FAULT. -/
def State.clearFault (s : State) (h : Hose) : State :=
  (s.modHose h fun u => { u with faults := { meter := false, valve := false } }).raise .shutdown

/-- CLEAR_HOSE_FAULT, R120. -/
def execClearHoseFault (hose : Byte) (s : State) : Result :=
  .next (s.request 0x14 1 fun s =>
    match hoseOf hose with
    | none => (s, .refused .range)
    | some h =>
      guarded [(s.hoseFaulted h, .state), (!s.hoseCausePresent h, .causeActive)] s
        (s.clearFault h, .done []))

/-- R122: an accepted CLEAR_LANE_SHUTDOWN. -/
def State.clearLane (s : State) : State :=
  (s.modShut fun u => { u with latch := false, creepList := Vector.replicate 4 false }).raise
    .shutdown

/-- R122: a listed CREEP entry is present. -/
def State.creepActive (s : State) : Bool :=
  (indices 4).any fun h => s.shut.creepList[h] && s.creepPresent h

/-- CLEAR_LANE_SHUTDOWN, R122. -/
def execClearLaneShutdown (s : State) : Result :=
  .next (s.request 0x15 0 fun s =>
    guarded [(s.shut.latch, .state), (!s.creepActive, .causeActive)] s
      ((s.clearLane).settle s, .done []))

/-- R126, step 1: every homed tank in LOSS_ALARM is rebased. -/
def State.restoreTanks (s : State) : State :=
  forTanks (fun t s =>
    match s.home[t] with
    | none => s
    | some u => if u.recon = .lossAlarm then s.commitHome t u.restore false else s) s

/-- R126: an accepted REQUEST_BAY_RESTORE. The own membership is the origin's; an entry that another
station had under the number now the own one stays (log 63). -/
def State.restoreBay (s : State) : State :=
  let s := s.restoreTanks.changeSources fun s => s.modShut fun u => { u with origin := none }
  (s.modLink fun l => l.offer .restore).raise .shutdown

/-- R126: the checks of REQUEST_BAY_RESTORE. -/
def State.restoreChecks (s : State) : List (Bool × Reason) :=
  [(s.shut.origin.isSome, .state),
   (!((s.shut.origin.getD []).any s.causeActive), .causeActive)]

/-- REQUEST_BAY_RESTORE, R126. -/
def execRequestBayRestore (s : State) : Result :=
  .next (s.request 0x16 0 fun s =>
    guarded s.restoreChecks s (s.restoreBay.settle s, .done []))

/-! ## Frames (R128) -/

/-- R128: a SPILL of a station. -/
def State.takeSpill (s : State) (p : Station) (l : List Byte) : State :=
  s.changeSources fun s => s.modShut fun u =>
    { u with sources := put u.sources p (some { clear := 0, causes := some (spillCauses l) }) }

/-- SPILL_FRAME_TAKEN, R128. -/
def execSpillFrameTaken (s : State) : Result :=
  .next (s.takeFrame 0 fun p l s' => (s'.takeSpill p l).settle s')

/-- R128, R129: a station leaves the source set. -/
def State.dropSource (s : State) (p : Station) : State :=
  s.changeSources fun s => s.modShut fun u => { u with sources := put u.sources p none }

/-- RESTORE_FRAME_TAKEN, R128. -/
def execRestoreFrameTaken (s : State) : Result :=
  .next (s.takeFrame 1 fun p _ s' => (s'.dropSource p).settle s')

/-- R129: the spill flag of a beacon. -/
def State.judgeFlag (s : State) (p : Station) (spill : Bool) : State :=
  match s.shut.sources[p], spill with
  | none, true =>
    s.changeSources fun s => s.modShut fun u =>
      { u with sources := put u.sources p (some { clear := 0, causes := none }) }
  | some x, true =>
    s.modShut fun u => { u with sources := put u.sources p (some { x with clear := 0 }) }
  | some x, false =>
    if x.clear + 1 < 2 then
      s.modShut fun u => { u with sources := put u.sources p (some { x with clear := x.clear + 1 }) }
    else s.dropSource p
  | none, false => s

end Sys2Proof.Machine
end

