-- ==== Sys2Proof/Machine/LinkCmds.lean ====
section
/-! DEFINITION. The commands of chapter 8: beacons, attempts to send, reception, silence. -/

namespace Sys2Proof.Machine

/-- BEACON_PERIOD_EXPIRY, R140. -/
def execBeaconPeriodExpiry (s : State) : Result :=
  .next (if s.started ∧ s.link.beaconT.isSome then s.formBeacon.settle s.formBeacon else s)

/-! ## Sending (R137 to R139, R145) -/

/-- R134: the line is IDLE: a dropped frame no longer bars a start (R135), and a new number and rate
are taken up (R152). -/
def Link.becomeIdle (l : Link) (count : Nat) : Link :=
  { l with line := .idle, idleCount := count, dropped := false }.takeUp

/-- R134: the line after a part of a frame, given by its bytes: WAIT, or IDLE with 10 recessive
bits. -/
def Link.lineAfter (l : Link) (bytes : List Byte) : Link :=
  let n := recessiveTail bytes.reverse
  if Config.idleBits ≤ n then l.becomeIdle n else { l with line := .wait, idleCount := n }

/-- R145, R186: attempts are made: not before start-up has ended. -/
def State.maySend (s : State) : Bool :=
  s.started && !s.link.withdrawn && !s.link.dupStation && s.sectionValid .station

/-- R145: the lowest kind number in the queue. -/
def lowestKind (q : List TxEntry) : Nat := q.foldl (fun k e => Nat.min k e.frame.kind) 7

/-- R145: the first entry of a kind is marked as being sent. -/
def markSending (kind : Nat) : List TxEntry → List TxEntry
  | [] => []
  | e :: rest =>
    if e.frame.kind = kind then { e with sending := true } :: rest else e :: markSending kind rest

/-- The entry being sent. -/
def Link.beingSent (l : Link) : Option TxEntry := l.txQueue.find? TxEntry.sending

/-- R91: the pump state a GAUGE frame takes when it is sent. -/
def State.pumpAtSending (s : State) : TxFrame → Nat
  | .gauge t _ => optCode (fun p : Pump => p.state.code) s.pumps[t]
  | _ => 0

/-- R137, R145: an attempt starts; the bytes go on the line. -/
def State.startSend (s : State) (number : Station) : State :=
  let q := markSending (lowestKind s.link.txQueue) s.link.txQueue
  let bytes :=
    match q.find? TxEntry.sending with
    | none => s.link.wire
    | some e => frameBytes number e.frame.kind
        (e.frame.payload (s.pumpAtSending e.frame) s.link.rejoin)
  s.modLink fun l =>
    { l with txQueue := q, newBeacon := false, line := .sending, idleCount := 0, wire := bytes }

/-- FRAME_SEND_START, R137, R145: on an IDLE line. -/
def execFrameSendStart (s : State) : Result :=
  .next
    (match s.ownNumber with
     | none => s
     | some number =>
       if s.maySend ∧ s.link.line = .idle ∧ s.link.txQueue ≠ [] then
         s.startSend number
       else s)

/-- R137, R138: an attempt fails and the station takes up reception. -/
def Link.failAttempt (l : Link) : Link :=
  { l with txQueue := failedQueue l.newBeacon l.txQueue, line := .receiving, idleCount := 0 }

/-- ARBITRATION_LOST, R137. -/
def execArbitrationLost (s : State) : Result :=
  .next
    (if s.link.line = .sending then
      (s.modLink fun l =>
        { l.failAttempt with
          counts := { l.counts with arbLosses := sat16 l.counts.arbLosses } }).tidyQueue
    else s)

/-- R139: the station is WITHDRAWN. -/
def State.withdraw (s : State) : State :=
  (s.modLink fun l =>
    { l with withdrawn := true, withdrawT := some Config.withdrawalMs,
             counts := { l.counts with withdrawals := sat16 l.counts.withdrawals } }).raise .link

/-- SEND_ERROR, R138, R139. -/
def execSendError (s : State) : Result :=
  .next
    (if s.link.line = .sending then
      let s' := s.modLink fun l =>
        { l.failAttempt with
          retry := Nat.min (l.retry + 1) Config.retryLimit,
          counts := { l.counts with sendErrors := sat16 l.counts.sendErrors } }
      (if Config.retryLimit ≤ s.link.retry + 1 then s'.withdraw else s').tidyQueue
    else s)

/-- R133, R139, R161: what a frame sent whole does beyond the link. -/
def State.frameGone (s : State) : TxFrame → State
  | .spill _ => s.modShut fun u => { u with spillsSent := sat16 u.spillsSent }
  | .restore => s.modShut fun u => { u with restoresSent := sat16 u.restoresSent }
  | .summary slot _ =>
    s.modNv fun n => { n with unannounced := n.unannounced.filter fun k => k != slot }
  | .beacon _ => s.modLink fun l => { l with rejoin := false }
  | .pump _ _ _ => s
  | .gauge _ _ => s
  | .query _ => s
  | .reply1 _ => s
  | .reply2 _ => s

/-- R138: the frame has left the queue; the line after its end field. -/
def Link.sentWhole (l : Link) : Link :=
  { l.lineAfter (l.wire ++ [0xFF]) with
    txQueue := l.txQueue.filter fun e => !e.sending, retry := 0,
    counts := { l.counts with framesSent := sat16 l.counts.framesSent } }

/-- FRAME_SENT, R138. -/
def execFrameSent (s : State) : Result :=
  .next
    (if s.link.line = .sending then
      match s.link.beingSent with
      | none => s
      | some e => ((s.modLink Link.sentWhole).frameGone e.frame).tidyQueue
    else s)

/-- WITHDRAWAL_TIMER_EXPIRY, R139. -/
def execWithdrawalTimerExpiry (s : State) : Result :=
  .next
    (if s.link.withdrawn ∧ s.link.withdrawT.isSome then
      s.modLink fun l => { l with withdrawn := false, withdrawT := none, retry := 0, rejoin := true }
    else s)

/-! ## Reception (R135, R146) -/

/-- R135: a frame is dropped and counted. -/
def Link.drop (l : Link) (count : LinkCounts → LinkCounts) : Link :=
  { l with dropped := true, counts := count l.counts }

/-- R135: a format error is counted. -/
def LinkCounts.format (c : LinkCounts) : LinkCounts :=
  { c with formatErrors := sat16 c.formatErrors }

/-- R135: a CRC error is counted. -/
def LinkCounts.crc (c : LinkCounts) : LinkCounts := { c with crcErrors := sat16 c.crcErrors }

/-- R135: an unknown kind is counted. -/
def LinkCounts.unknown (c : LinkCounts) : LinkCounts :=
  { c with unknownKinds := sat16 c.unknownKinds }

/-- R135, R146: a frame is judged and offered to the receive queue. Only a frame that fails a check of
R135 bars the next start until the line is IDLE; one that finds the queue full does not (log 89). -/
def Link.judgeFrame (l : Link) (ident length : Byte) (payload : List Byte) (crc endField : Byte) :
    Link :=
  if endField ≠ 0xFF then l.drop LinkCounts.format
  else if crc ≠ crc8 (ident :: length :: payload) then l.drop LinkCounts.crc
  else if 7 < ident.toNat / 16 then l.drop LinkCounts.unknown
  else if lengthOk (ident.toNat / 16) payload = false then l.drop LinkCounts.format
  else if l.rxQueue.length < Config.rxPlaces then
    { l with rxQueue := l.rxQueue ++ [{ ident := ident, payload := payload }] }
  else { l with counts := { l.counts with rxOverruns := sat16 l.counts.rxOverruns } }

/-- R134, R135, R152: the controller may be receiving: not while it sends, nor from a dropped frame
to the next IDLE. -/
def State.mayReceive (s : State) : Bool :=
  s.sectionValid .station && s.link.line != .sending && !s.link.dropped

/-- FRAME_RECEIVED, R135. -/
def execFrameReceived (ident length : Byte) (payload : List Byte) (crc endField : Byte)
    (s : State) : Result :=
  .next
    (if s.mayReceive then
      s.modLink fun l =>
        (l.judgeFrame ident length payload crc endField).lineAfter
          ([ident, length] ++ payload ++ [crc, endField])
    else s)

/-- RECEPTION_ENDED_LENGTH_ERROR, R135. The bits read are those of the identifier, which no operand
carries and which is a free value (log 82), and of the length (R134). -/
def execReceptionEndedLengthError (length : Byte) (s : State) : Result :=
  .next
    (if s.mayReceive then
      s.modLink fun l => (l.drop LinkCounts.format).lineAfter
        [Config.unseenIdent s.clock l.counts.formatErrors l.idleCount, length]
    else s)

/-! ## Beacons taken (R147, R148) -/

/-- R148: the beacon shows an epoch change against the entry as it stood. -/
def Peer.changedBy (e : Peer) (b : BeaconFields) : Bool :=
  e.heard && e.epoch != some b.epoch

/-- R148: the entry of a station takes a beacon. -/
def Peer.take (e : Peer) (b : BeaconFields) (now : U32) : Peer :=
  { e with heard := true, epoch := some b.epoch, lastAt := some now,
           silenceT := some Config.silenceMs, fields := some b, silent := false,
           epochChanges := if e.changedBy b then sat16 e.epochChanges else e.epochChanges,
           rejoins := if b.rejoined then sat16 e.rejoins else e.rejoins }

/-- Do `f` for every tank homed at station `p` and not here. -/
def forTanksOf (p : Station) (f : Tank → State → State) (s : State) : State :=
  forTanks (fun t s => if s.cfg.homeOf[t] = some p ∧ s.isHome t = false then f t s else s) s

/-- R33: a beacon clears SILENT: HOME_SILENT leaves the fills on the station's tanks. -/
def State.peerHeard (s : State) (p : Station) : State :=
  forTanksOf p (fun t s => forFillsOn t (fun h s => s.leaveHold h .homeSilent) s) s

/-- R94: the draw entries of a beacon. -/
def State.takeDraws (s : State) (p : Station) (draws : List (Byte × U32)) (changed : Bool) :
    State :=
  draws.foldl
    (fun s d =>
      match tankOf d.1 with
      | none => s
      | some t => s.takeTotal p t d.2 changed) s

/-- R104: the demand mask of a beacon reaches the controllers. -/
def State.takeMask (s : State) (p : Station) (mask : Byte) (changed : Bool) : State :=
  forTanks (fun t s =>
    if s.pumps[t].isSome then
      if mask.getLsbD t.val && !changed then s.takeDemand t p else s.dropDemand t p
    else s) s

/-- R67: the duplicate-tag watch. -/
def State.watchTag (s : State) (p : Station) (machine : U32) : State :=
  if (s.visit.state = .querying ∨ s.visit.state = .opened) ∧ s.visit.machineId = some machine then
    match s.ownNumber with
    | none => s
    | some own => if p.val < own.val then (s.endVisit .duplicateTag).raise .visit else s
  else s

/-- R147, R148: a beacon of a station. -/
def State.takeBeacon (s : State) (p : Station) (b : BeaconFields) : State :=
  let e := s.link.peers[p]
  let changed := e.changedBy b
  let s := (s.modPeer p fun e => e.take b s.clock).raiseIf b.rejoined .link
  let s := if e.silent then s.peerHeard p else s
  ((((s.takeDraws p b.draws changed).takeMask p b.demand changed).judgeFlag p b.spill).watchTag p
    b.machineId)

/-- BEACON_TAKEN, R148. -/
def execBeaconTaken (s : State) : Result :=
  .next (s.takeFrame 7 fun p l s' => (s'.takeBeacon p (beaconOf l)).settle s')

/-- R149: a peer falls SILENT. -/
def State.peerSilent (s : State) (p : Station) : State :=
  let s := (s.modPeer p fun e =>
    { e with silent := true, silenceT := none, silences := sat16 e.silences }).raise .link
  let s := forTanksOf p (fun t s =>
    forFillsOn t (fun h s => s.enterHold h .homeSilent) (s.setPumpView t .unknown)) s
  forTanks (fun t s => s.dropDemand t p) s

/-- SILENCE_TIMER_EXPIRY, R149; the own entry never becomes SILENT. -/
def execSilenceTimerExpiry (p : Station) (s : State) : Result :=
  .next
    (if s.link.peers[p].heard ∧ s.link.peers[p].silenceT.isSome ∧ s.link.number ≠ some p then
      (s.peerSilent p).settle s
     else s)

/-- READ_PEER, R153. -/
def execReadPeer (station : Byte) (s : State) : Result :=
  .next (s.judge 0x05 1 fun s =>
    match stationOf station with
    | none => (s.taken, .refused .range)
    | some p => (s.taken, .done (s.peerItems p)))

end Sys2Proof.Machine
end

