-- ==== Sys2Proof/Machine/StoreCmds.lean ====
section
/-! DEFINITION. The commands of chapter 9: completions of program jobs, records read and
consumed, the store's counters. -/

namespace Sys2Proof.Machine

/-- R155: as many jobs in the queue as answer BUSY. -/
def State.jobsBusy (s : State) : Bool := decide (Config.jobsBusy ≤ s.nv.queue.length)

/-- R17, R43: the block that queued a record write is told of its completion. -/
def State.recordTold (s : State) (owner : RecordOwner) : State :=
  match owner with
  | .fill h => (s.modFill h Fill.recorded).raise .fillClosed
  | .creep h => s.modMeter h fun m => { m with jobCreep := none }
  | .receipt => s
  | .interrupted _ => s

/-- R160, R166: a record write that ends without a slot, or an INTERRUPTED one, goes on. -/
def State.recoverNext (s : State) : State :=
  match s.nv.recovery with
  | .record rest => s.recoverHoses rest
  | .nothing => s
  | .epoch => s
  | .totals _ => s

/-- R160: the record write in progress finds the log full at its completion: a CREEP record, whose
write carries no reservation, of a log that has filled since the write began (log 52). -/
def State.creepCrowded (s : State) : RecordOwner → Bool
  | .creep _ => s.logFull
  | .fill _ => false
  | .receipt => false
  | .interrupted _ => false

/-- The slot that the record write in progress fills at its completion: none when it took none, or
when the log has filled under a CREEP record (log 52). -/
def State.slotFilled (s : State) (owner : RecordOwner) (run : RecordRun) : Option Nat :=
  if s.creepCrowded owner then none else run.slot

/-- R157, R160: the record write in progress completes. One without a slot to fill writes nothing:
a CREEP record is deferred (log 52), and after an INTERRUPTED one recovery goes on with its
checkpoint left as it is (log 78). -/
def State.completeRecord (s : State) (owner : RecordOwner) (r : Record) (run : RecordRun) :
    State :=
  match s.slotFilled owner run with
  | none =>
    (match owner with
     | .creep h => s.leaveJob.deferCreep h
     | .interrupted _ => s.leaveJob.recoverNext
     | .fill _ => s.leaveJob
     | .receipt => s.leaveJob)
  | some slot =>
    let s := ((s.recordWritten owner slot (run.record r)).recordTold owner).leaveJob
    match owner with
    | .interrupted _ => s.recoverNext
    | _ => s

/-- RECORD_WRITE_COMPLETE, R157. -/
def execRecordWriteComplete (s : State) : Result :=
  .next
    (match s.nv.queue.head?, s.nv.run with
     | some (.record owner r), some run => (s.completeRecord owner r run).settle s
     | _, _ => s)

/-- R26: an entry checkpoint written releases the valve of its fill. -/
def Fill.release (f : Fill) (seq : U32) : Fill :=
  if f.beyondIdle ∧ f.seq = some seq then { f with released := true } else f

/-- CHECKPOINT_WRITE_COMPLETE, R26, R44. -/
def execCheckpointWriteComplete (s : State) : Result :=
  .next
    (match s.nv.queue.head? with
     | some (.checkpoint h entry c) =>
       let s := (s.checkpointWritten h entry c).leaveJob
       if entry then s.modFill h fun f => f.release c.seq else s
     | _ => s)

/-- R165: the epoch update completes and the log is scanned. -/
def State.epochWritten (s : State) (e : U16) : State :=
  ((((s.modStore fun st => { st with epoch := e }).freshCode (inArea .epoch)).modLink fun l =>
    { l with epoch := e }).leaveJob).scanLog

/-- R165: a tank word update of recovery completes. -/
def State.totalWritten (s : State) (t : Tank) (w : Option TankWord) (slot : Option Nat) : State :=
  let s := ((s.modStore fun st => st.totalSteps 2 t w slot).freshCode fun e =>
    w.isSome && inArea (.total t) e).leaveJob
  match s.nv.recovery with
  | .totals rest => s.recoverTotals rest
  | .nothing => s
  | .epoch => s
  | .record _ => s

/-- PERSISTED_TOTALS_UPDATE_COMPLETE, R165. -/
def execPersistedTotalsUpdateComplete (s : State) : Result :=
  .next
    (match s.nv.queue.head? with
     | some (.epochUpdate e) => (s.epochWritten e).settle s
     | some (.totalUpdate t w slot) => (s.totalWritten t w slot).settle s
     | _ => s)

/-- CONSUME_MARKS_COMPLETE, R163. -/
def execConsumeMarksComplete (s : State) : Result :=
  .next
    (match s.nv.queue.head? with
     | some (.consume slots left) =>
       let s' := (s.modStore fun st => st.consume slots).leaveJob
       (s'.endExecution .done (b2 slots.length ++ b2 left)).settle s
     | _ => s)

/-- CONFIG_WRITE_COMPLETE, R173. -/
def execConfigWriteComplete (s : State) : Result :=
  .next
    (match s.nv.queue.head? with
     | some (.configWrite sec offset bytes) =>
       let s := s.modStore fun st => { st with config := writeSection st.config sec offset bytes }
       let s := s.freshCode (configWords sec offset bytes.length)
       let s := s.leaveJob.modTerm fun t => { t with latch := false }
       s.endExecution .done []
     | _ => s)

/-- LOCK_COMPLETE, R174. -/
def execLockComplete (s : State) : Result :=
  .next
    (match s.nv.queue.head? with
     | some (.lock sec) =>
       let s := s.modStore fun st => { st with locks := put st.locks sec.index true }
       let s := (s.freshCode (inArea (.lock sec))).leaveJob.modTerm fun t =>
         { t with latch := false }
       s.endExecution .done []
     | _ => s)

/-! ## Requests -/

/-- R162, R164: the words of the record found are read; those of the record being written are
fresh. -/
def State.readFound (s : State) : Option (Nat × LogEntry) → State
  | none => s
  | some (n, _) => if s.takenSlot = some n then s else s.readStore (inArea (.slot n))

/-- R162: a READ_RECORD during a record write is counted (log 16). -/
def State.countRead (s : State) : State :=
  s.modNv fun n => { n with run := n.run.map fun x => { x with reads := x.reads + 1 } }

/-- READ_RECORD, R162. -/
def execReadRecord (seq : Option U32) (s : State) : Result :=
  .next (s.request 0x0F (if seq.isSome then 4 else 0) fun s =>
    ((s.readFound (s.findRecord seq)).countRead, .done (s.recordItems (s.findRecord seq))))

/-- R163: the entries UNCONSUMED at or below a sequence. -/
def State.unconsumedUpTo (s : State) (q : U32) : List (Nat × LogEntry) :=
  s.store.log.filter fun e => !e.2.consumed && decide (e.2.record.seq.toNat ≤ q.toNat)

/-- R163: the rule of CONSUME_RECORDS. The number left unconsumed, which the reply at the job's completion
carries, is that of the moment at which the request is accepted (log 87). -/
def State.consumeRule (s : State) (q : U32) : State × Answer :=
  if s.jobsBusy then (s, .busy)
  else
    let named := ((s.unconsumedUpTo q).filter fun e => s.announced e.1).map Prod.fst
    let left := ((s.unconsumedUpTo q).filter fun e => !s.announced e.1).length
    if named.isEmpty then (s.taken, .done (b2 0 ++ b2 left))
    else (s.taken.offerJob (.consume named left), .executing)

/-- CONSUME_RECORDS, R163. -/
def execConsumeRecords (q : U32) (s : State) : Result :=
  .next (s.judge 0x10 4 fun s => s.consumeRule q)

/-- READ_NV_COUNTERS, R164. -/
def execReadNvCounters (s : State) : Result :=
  .next (s.readRequest 0x1F 0 State.nvItems)

/-- CLEAR_NV_COUNTERS, R164. -/
def execClearNvCounters (s : State) : Result :=
  .next (s.request 0x20 0 fun s =>
    (s.modNv fun n => { n with sc := 0, dc := 0, scCap := none, dcCap := none }, .done []))

end Sys2Proof.Machine
end

