-- ==== Sys2Proof/Machine/Configs.lean ====
section
/-! DEFINITION. The commands of chapter 10: loading, the parity watch, commissioning and
calibration. -/

namespace Sys2Proof.Machine

/-- R168, R170: the end of a load that a request or the parity watch started, or a reset. -/
def State.finishLoad (s : State) (cause : LoadCause) : State :=
  let s := s.completeLoad
  let s := if s.term.engine = some 0x25 then s.endExecution .done s.loadItems else s
  match cause with
  | .reset => s.startTimers.beginRecovery
  | .request => s
  | .automatic => s

/-- CONFIG_LOADING_COMPLETE, R168. -/
def execConfigLoadingComplete (s : State) : Result :=
  .next
    (match s.cfg.loading with
     | none => s
     | some cause => (s.finishLoad cause).settle s)

/-- RELOAD_CONFIG, R170. -/
def execReloadConfig (s : State) : Result :=
  .next (s.request 0x25 0 fun s =>
    guarded [(s.allIdle, .state)] s
      (s.modCfg fun c =>
         { c with reloadPending := false, loading := c.loading <|> some .request },
       .executing))

/-! ## The parity watch (R171) -/

/-- R171: a word of a valid section of the working copy has odd ones with its parity bit. -/
def State.sectionMismatch (s : State) : Bool :=
  allSections.any fun sec =>
    s.sectionValid sec && s.cfg.parity[sec.index] != sectionParity s.cfg.data sec

/-- R171, R175: a word of a calibration override has. -/
def State.overrideMismatch (s : State) : Bool :=
  (indices 4).any fun h =>
    match s.hoses[h].override with
    | none => false
    | some o => o.parity != overrideParity o.k1000 o.c0 o.c1 o.c2 o.c3

/-- R171: a parity fault begins. -/
def State.beginParityFault (s : State) : State :=
  let s := (s.modCfg fun c =>
    { c with parityFault := true, reloadPending := true,
             parityFaults := sat16 c.parityFaults }).raise .config
  if s.cfg.fault then s else s.enterConfigFault

/-- PARITY_CHECK, R171. -/
def execParityCheck (s : State) : Result :=
  .next
    (if s.cfg.parityT.isSome then
      let s' := s.modCfg fun c => { c with parityT := some Config.parityMs }
      if (s.sectionMismatch || s.overrideMismatch) && !s.cfg.parityFault then
        s'.beginParityFault.settle s
      else s'
    else s)

/-! ## Commissioning (R172 to R174) -/

/-- CONFIG_WRITE_ENABLE, R172: taken, it sets the latch. -/
def execConfigWriteEnable (s : State) : Result :=
  .next (s.request 0x21 0 fun s => (s.modTerm fun t => { t with latch := true }, .done []))

/-- R173: a range of bytes lies within a section. -/
def inSection (sec : Section) (offset n : Nat) : Bool := decide (offset + n ≤ sectionSize sec)

/-- R173: the checks of CONFIG_WRITE after the section number, with the latch as it stands. -/
def State.writeChecks (s : State) (sec : Section) (offset n : Nat) : List (Bool × Reason) :=
  [(inSection sec offset n, .range), (s.term.latch, .state), (!s.locked sec, .locked)]

/-- R172, R179: a request that an accepted job keeps executing: taken, with the latch standing. -/
def State.takenLatched (s : State) : State :=
  s.modTerm fun t => { t with slot := none, key := false }

/-- R173, R174: the lock word of a section is read with the check that reads it (R164). -/
def State.readLock (s : State) (sec : Section) : State := s.readStore (inArea (.lock sec))

/-- R173: the rule of CONFIG_WRITE. -/
def State.writeRule (s : State) (sec : Byte) (offset : Nat) (bytes : List Byte) : State × Answer :=
  match sectionOf sec with
  | none => (s.taken, .refused .range)
  | some x =>
    match firstFailure (s.writeChecks x offset bytes.length) with
    | some .locked => (s.taken.readLock x, .refused .locked)
    | some r => (s.taken, .refused r)
    | none =>
      if s.jobsBusy then (s, .busy)
      else ((s.takenLatched.readLock x).offerJob (.configWrite x offset bytes), .executing)

/-- CONFIG_WRITE, R173; a length the request does not allow is BAD_FRAME (R179). -/
def execConfigWrite (sec : Byte) (offset : U16) (bytes : List Byte) (s : State) : Result :=
  .next
    (if 1 ≤ bytes.length ∧ bytes.length ≤ 16 then
      s.judge 0x22 (3 + bytes.length) fun s => s.writeRule sec offset.toNat bytes
    else
      let s := s.clockRequest (3 + bytes.length)
      if s.busyLine then s.formReply 0x22 .busy [] else s.formReply 0x22 .badFrame [])

/-- A word of a section among those that a run of bytes touches. -/
def inBytes (sec : Section) (offset n : Nat) (e : StoreError) : Bool :=
  e.area == .config sec && (wordsTouched offset n).contains e.word

/-- R173: the items of CONFIG_READ. The errors are two yes or no bytes, single and double, of the words
of the data alone (log 14). -/
def State.configReadItems (s : State) (sec : Section) (offset n : Nat) (working : Bool) :
    List Byte :=
  let d := if working then s.cfg.data else s.store.config
  let bytes := ((encodeSection d sec).drop offset).take n
  if working then bytes ++ beBool (s.sectionValid sec)
  else bytes ++ beBool (s.locked sec) ++ beBool (s.readsSingle (inBytes sec offset n)) ++
    beBool (s.readsDouble (inBytes sec offset n))

/-- R173: the rule of CONFIG_READ. -/
def State.configReadRule (s : State) (sec : Byte) (offset : Nat) (length source : Byte) :
    State × Answer :=
  match sectionOf sec with
  | none => (s, .refused .range)
  | some x =>
    let n := length.toNat
    guarded
      [(inRange 1 32 n && decide (source.toNat ≤ 1) && inSection x offset n, .range)] s
      (if source = 1 then s else (s.readStore (inBytes x offset n)).readLock x,
       .done (s.configReadItems x offset n (source == 1)))

/-- CONFIG_READ, R173. -/
def execConfigRead (sec : Byte) (offset : U16) (length source : Byte) (s : State) : Result :=
  .next (s.request 0x23 5 fun s => s.configReadRule sec offset.toNat length source)

/-- R174: the rule of CONFIG_LOCK. -/
def State.lockRule (s : State) (sec : Byte) : State × Answer :=
  match sectionOf sec with
  | none => (s.taken, .refused .range)
  | some x =>
    match firstFailure [(s.term.latch, .state), (!s.locked x, .locked)] with
    | some .locked => (s.taken.readLock x, .refused .locked)
    | some r => (s.taken, .refused r)
    | none =>
      if s.jobsBusy then (s, .busy)
      else ((s.takenLatched.readLock x).offerJob (.lock x), .executing)

/-- CONFIG_LOCK, R174. -/
def execConfigLock (sec : Byte) (s : State) : Result :=
  .next (s.judge 0x24 1 fun s => s.lockRule sec)

/-! ## Calibration (R175, R176) -/

/-- CAL_KEY, R175: taken, it sets the key. -/
def execCalKey (s : State) : Result :=
  .next (s.request 0x26 0 fun s => (s.modTerm fun t => { t with key := true }, .done []))

/-- R4: Keff of a hose is computed for its band in use. -/
def State.refreshKeff (s : State) (h : Hose) : State :=
  s.modMeter h fun m => { m with keff := s.keffFor h m.band }

/-- R175: the hose is given an override. -/
def State.setOverride (s : State) (h : Hose) (k c0 c1 c2 c3 : U32) : State :=
  (s.modHose h fun u =>
    { u with
      override := some
        { k1000 := k, c0 := c0, c1 := c1, c2 := c2, c3 := c3,
          parity := overrideParity k c0 c1 c2 c3 } }).refreshKeff h

/-- R175: the values of an override lie in their ranges. -/
def overrideOk (k c0 c1 c2 c3 : U32) : Bool :=
  inRange 1000 9999999 k.toNat && correctionOk c0 && correctionOk c1 && correctionOk c2 &&
    correctionOk c3

/-- R175: the rule of CAL_OVERRIDE with the key as the request found it. -/
def State.overrideRule (s : State) (key : Bool) (hose : Byte) (k c0 c1 c2 c3 : U32) :
    State × Answer :=
  if key then
    match hoseOf hose with
    | none => (s, .refused .range)
    | some h =>
      let s' := s.setOverride h k c0 c1 c2 c3
      guarded
        [(overrideOk k c0 c1 c2 c3, .range),
         (s.sectionValid .hoses && s.sectionValid .products, .configFault),
         (!(s.fill h).beyondIdle, .state)] s
        (s', .done (b4 (s'.meter h).keff))
  else (s, .refused .state)

/-- CAL_OVERRIDE, R175. -/
def execCalOverride (hose : Byte) (k c0 c1 c2 c3 : U32) (s : State) : Result :=
  .next (s.judge 0x27 21 fun s => s.taken.overrideRule s.term.key hose k c0 c1 c2 c3)

/-- R176: the hose returns to its working values. -/
def State.revert (s : State) (h : Hose) : State :=
  (s.modHose h fun u => { u with override := none }).refreshKeff h

/-- CAL_REVERT, R176. -/
def execCalRevert (hose : Byte) (s : State) : Result :=
  .next (s.request 0x28 1 fun s =>
    match hoseOf hose with
    | none => (s, .refused .range)
    | some h =>
      guarded [(s.hoses[h].override.isSome && !(s.fill h).beyondIdle, .state)] s
        (s.revert h, .done []))

end Sys2Proof.Machine
end

