-- ==== Sys2Proof/Machine/Packets.lean ====
section
/-! DEFINITION. The packets of the terminal line as they are read at select high (R178, R179,
R190). -/

namespace Sys2Proof.Machine

/-- R190: the request codes are 0x01 to 0x29. -/
def isRequestCode (code : Byte) : Bool :=
  decide (1 ≤ code.toNat) && decide (code.toNat ≤ 41)

/-- R190: a request without parameters. -/
def plainRequest (p : List Byte) (i : Instr) : Option Instr := if p.isEmpty then some i else none

/-- R190: a request of `n` payload bytes. -/
def sizedRequest (p : List Byte) (n : Nat) (i : Instr) : Option Instr :=
  if p.length = n then some i else none

/-- R190: the request that a request code and its payload name, absent where the request does not
allow the length. `steps` is the operand of RESTART that no packet carries (log 16). -/
def requestOf (steps : Nat) (code : Byte) (p : List Byte) : Option Instr :=
  match code.toNat with
  | 0x01 => plainRequest p .readIdentity
  | 0x02 => plainRequest p .readStatus
  | 0x03 => sizedRequest p 1 (.readHose (u8At p 0))
  | 0x04 => sizedRequest p 1 (.readTankView (u8At p 0))
  | 0x05 => sizedRequest p 1 (.readPeer (u8At p 0))
  | 0x06 => sizedRequest p 8 (.openManualVisit (u32At p 0) (u32At p 4))
  | 0x07 => plainRequest p .closeVisit
  | 0x08 => plainRequest p .readVisit
  | 0x09 => sizedRequest p 6 (.armHose (u8At p 0) (u8At p 1) (u32At p 2))
  | 0x0A => sizedRequest p 1 (.stopHose (u8At p 0))
  | 0x0B => sizedRequest p 1 (.pauseHose (u8At p 0))
  | 0x0C => sizedRequest p 1 (.resumeHose (u8At p 0))
  | 0x0D => sizedRequest p 4 (.readAccount (u32At p 0))
  | 0x0E => sizedRequest p 1 (.readAccountAt (u8At p 0))
  | 0x0F =>
    if p.isEmpty then some (.readRecord none)
    else sizedRequest p 4 (.readRecord (some (u32At p 0)))
  | 0x10 => sizedRequest p 4 (.consumeRecords (u32At p 0))
  | 0x11 => sizedRequest p 1 (.receiptStart (u8At p 0))
  | 0x12 => sizedRequest p 1 (.receiptEnd (u8At p 0))
  | 0x13 => sizedRequest p 1 (.clearPumpLockout (u8At p 0))
  | 0x14 => sizedRequest p 1 (.clearHoseFault (u8At p 0))
  | 0x15 => plainRequest p .clearLaneShutdown
  | 0x16 => plainRequest p .requestBayRestore
  | 0x17 => plainRequest p .closeLane
  | 0x18 => plainRequest p .openLane
  | 0x19 => plainRequest p (.restart steps)
  | 0x1A => plainRequest p .resetTagInterface
  | 0x1B => plainRequest p .readEvents
  | 0x1C => sizedRequest p 2 (.clearEvents (u16At p 0))
  | 0x1D => sizedRequest p 2 (.setEventMask (u16At p 0))
  | 0x1E => sizedRequest p 4 (.setClock (u32At p 0))
  | 0x1F => plainRequest p .readNvCounters
  | 0x20 => plainRequest p .clearNvCounters
  | 0x21 => plainRequest p .configWriteEnable
  | 0x22 =>
    if 4 ≤ p.length ∧ p.length ≤ 19 then
      some (.configWrite (u8At p 0) (u16At p 1) (p.drop 3))
    else none
  | 0x23 => sizedRequest p 5 (.configRead (u8At p 0) (u16At p 1) (u8At p 3) (u8At p 4))
  | 0x24 => sizedRequest p 1 (.configLock (u8At p 0))
  | 0x25 => plainRequest p .reloadConfig
  | 0x26 => plainRequest p .calKey
  | 0x27 =>
    sizedRequest p 21
      (.calOverride (u8At p 0) (u32At p 1) (u32At p 5) (u32At p 9) (u32At p 13) (u32At p 17))
  | 0x28 => sizedRequest p 1 (.calRevert (u8At p 0))
  | 0x29 => sizedRequest p 5 (.proverArm (u8At p 0) (u32At p 1))
  | _ => none

/-- R179: the framing of a request packet: at least 3 bytes, a length of at most 32, 3 + length
bytes, and the CRC-8 of all bytes before the last. -/
def framed (packet : List Byte) : Bool :=
  decide (3 ≤ packet.length) && decide ((u8At packet 1).toNat ≤ 32) &&
    packet.length == 3 + (u8At packet 1).toNat &&
    packet.getLast? == some (crc8 packet.dropLast)

/-- The payload of a framed packet. -/
def payloadOf (packet : List Byte) : List Byte := (packet.drop 2).dropLast

/-- R178, R179: what the bytes of a transaction are, judged in R179's order; a transaction with no
complete byte is none. -/
def transactionOf (steps : Nat) : List Byte → Option Instr
  | [] => none
  | code :: rest =>
    let packet := code :: rest
    if code = 0 then some (.fetch packet.length)
    else if framed packet then
      if isRequestCode code then
        some ((requestOf steps code (payloadOf packet)).getD (.badFrame packet))
      else some (.unknownRequest code (payloadOf packet))
    else some (.badFrame packet)

/-- R179: the bytes are a request packet answered BAD_FRAME. -/
def packetBad (packet : List Byte) : Bool := transactionOf 0 packet == some (.badFrame packet)

/-- R179: a code and payload that a framed packet of an unknown request carries. -/
def packetUnknown (code : Byte) (payload : List Byte) : Bool :=
  !isRequestCode code && code != 0 && decide (payload.length ≤ 32)

end Sys2Proof.Machine
end

