-- ==== Sys2Proof/Machine/Terminal.lean ====
section
/-! DEFINITION. The commands of chapter 11: identity and status, events, clock, lane state,
fetches, unknown and bad requests, resets and start-up. -/

namespace Sys2Proof.Machine

/-- READ_IDENTITY, R180. -/
def execReadIdentity (s : State) : Result :=
  .next (s.readRequest 0x01 0 State.identityItems)

/-- READ_STATUS, R180. -/
def execReadStatus (s : State) : Result :=
  .next (s.readRequest 0x02 0 State.statusItems)

/-- UNKNOWN_REQUEST, R179: taken. A request code or a payload no packet carries is no such request
(log 1). -/
def execUnknownRequest (code : Byte) (payload : List Byte) (s : State) : Result :=
  .next
    (if packetUnknown code payload then
      let s := s.clockRequest payload.length
      if s.busyLine then s.formReply code .busy []
      else s.taken.formReply code .unknownRequest []
    else s)

/-- BAD_FRAME, R179: not taken. Bytes that are no bad packet are no such request (log 1). -/
def execBadFrame (packet : List Byte) (s : State) : Result :=
  .next
    (if packetBad packet then
      let s := s.modTerm fun t => { t with dataOut := List.replicate packet.length 0xFF }
      if s.busyLine then s.formReply (u8At packet 0) .busy []
      else s.formReply (u8At packet 0) .badFrame []
    else s)

/-- R178: the bytes of a fetch of `n` bytes. The first one is 0xFF also while a reply is held (log 91). -/
def fetchBytes (slot : Option Reply) (n : Nat) : List Byte :=
  match slot with
  | none => List.replicate n 0xFF
  | some r => ((0xFF :: r.bytes) ++ List.replicate n 0xFF).take n

/-- FETCH, R178; a transaction with no complete byte is ignored. -/
def execFetch (count : Nat) (s : State) : Result :=
  .next
    (if count = 0 then s
     else s.modTerm fun t => { t with dataOut := fetchBytes t.slot count, ready := false })

/-! ## Events and clock (R181, R182) -/

/-- READ_EVENTS, R181. -/
def execReadEvents (s : State) : Result :=
  .next (s.readRequest 0x1B 0 State.eventItems)

/-- CLEAR_EVENTS, R181. -/
def execClearEvents (named : U16) (s : State) : Result :=
  .next (s.request 0x1C 2 fun s =>
    let f := clearedFlags s.flags (named.truncate 12) s.clockUnset
    ({ s with flags := f }, .done (b2 f.toNat)))

/-- SET_EVENT_MASK, R181. -/
def execSetEventMask (mask : U16) (s : State) : Result :=
  .next (s.request 0x1D 2 fun s => ({ s with mask := mask.truncate 12 }, .done []))

/-- SET_CLOCK, R182. -/
def execSetClock (value : U32) (s : State) : Result :=
  .next (s.request 0x1E 4 fun s =>
    ({ s with clock := value, clockUnset := false,
              flags := s.flags &&& ~~~EventFlag.clockUnset.mask }, .done []))

/-- CLOCK_TICK, R182. -/
def execClockTick (s : State) : Result := .next { s with clock := s.clock + 1 }

/-! ## Lane state (R183, R184) -/

/-- R183: a CLOSE_LANE in OPEN with no close pending. -/
def State.beginClose (s : State) : State :=
  ((({ s with closePending := true }).endFills .laneClosing).endVisit .laneClosing).deactivate

/-- CLOSE_LANE, R183. -/
def execCloseLane (s : State) : Result :=
  .next (s.request 0x17 0 fun s =>
    (if s.laneOpen then s.beginClose.settle s else s, .done []))

/-- OPEN_LANE, R184. -/
def execOpenLane (s : State) : Result :=
  .next (s.request 0x18 0 fun s =>
    (if s.laneOpen then s
     else (({ s with laneClosed := false, closePending := false }).reactivate).settle s,
     .done []))

/-! ## Resets and start-up (R185, R186) -/

/-- RESTART, R185: taken, it begins a warm reset and forms no reply. -/
def execRestart (steps : Nat) (s : State) : Result :=
  .next
    (let s := s.clockRequest 0
     if s.busyLine then s.formReply 0x19 .busy [] else s.resetBy .warm steps)

/-- COLD_RESET, R185. -/
def execColdReset (steps : Nat) (s : State) : Result := .next (s.resetBy .cold steps)

/-- WARM_RESET, R185. -/
def execWarmReset (steps : Nat) (s : State) : Result := .next (s.resetBy .warm steps)

/-- R186: the first beacon is formed and start-up ends. -/
def State.endStartUp (s : State) : State :=
  ({ s.formBeacon with phase := .running, firstBeaconT := none }).raise .started

/-- START_UP_FIRST_BEACON, R186. -/
def execStartUpFirstBeacon (s : State) : Result :=
  .next (if s.phase = .beacon then s.endStartUp.tidyQueue else s)

end Sys2Proof.Machine
end

