-- ==== Sys2Proof/Machine/Dispatch.lean ====
section
/-! DEFINITION. The dispatch of the commands to their meanings. -/

namespace Sys2Proof.Machine

/-- The effect of a command on everything but the queue of commands. -/
def exec (i : Instr) (s : State) : Host.Outcome State Fault Refusal :=
  match i with
  | .readIdentity => Sys2Proof.Machine.execReadIdentity s
  | .readStatus => Sys2Proof.Machine.execReadStatus s
  | .readHose hose => Sys2Proof.Machine.execReadHose hose s
  | .readTankView tank => Sys2Proof.Machine.execReadTankView tank s
  | .readPeer station => Sys2Proof.Machine.execReadPeer station s
  | .openManualVisit machine hours => Sys2Proof.Machine.execOpenManualVisit machine hours s
  | .closeVisit => Sys2Proof.Machine.execCloseVisit s
  | .readVisit => Sys2Proof.Machine.execReadVisit s
  | .armHose hose options preset => Sys2Proof.Machine.execArmHose hose options preset s
  | .stopHose hose => Sys2Proof.Machine.execStopHose hose s
  | .pauseHose hose => Sys2Proof.Machine.execPauseHose hose s
  | .resumeHose hose => Sys2Proof.Machine.execResumeHose hose s
  | .readAccount machine => Sys2Proof.Machine.execReadAccount machine s
  | .readAccountAt position => Sys2Proof.Machine.execReadAccountAt position s
  | .readRecord seq => Sys2Proof.Machine.execReadRecord seq s
  | .consumeRecords seq => Sys2Proof.Machine.execConsumeRecords seq s
  | .receiptStart tank => Sys2Proof.Machine.execReceiptStart tank s
  | .receiptEnd tank => Sys2Proof.Machine.execReceiptEnd tank s
  | .clearPumpLockout tank => Sys2Proof.Machine.execClearPumpLockout tank s
  | .clearHoseFault hose => Sys2Proof.Machine.execClearHoseFault hose s
  | .clearLaneShutdown => Sys2Proof.Machine.execClearLaneShutdown s
  | .requestBayRestore => Sys2Proof.Machine.execRequestBayRestore s
  | .closeLane => Sys2Proof.Machine.execCloseLane s
  | .openLane => Sys2Proof.Machine.execOpenLane s
  | .restart steps => Sys2Proof.Machine.execRestart steps s
  | .resetTagInterface => Sys2Proof.Machine.execResetTagInterface s
  | .readEvents => Sys2Proof.Machine.execReadEvents s
  | .clearEvents named => Sys2Proof.Machine.execClearEvents named s
  | .setEventMask mask => Sys2Proof.Machine.execSetEventMask mask s
  | .setClock value => Sys2Proof.Machine.execSetClock value s
  | .readNvCounters => Sys2Proof.Machine.execReadNvCounters s
  | .clearNvCounters => Sys2Proof.Machine.execClearNvCounters s
  | .configWriteEnable => Sys2Proof.Machine.execConfigWriteEnable s
  | .configWrite sec offset bytes => Sys2Proof.Machine.execConfigWrite sec offset bytes s
  | .configRead sec offset length source => Sys2Proof.Machine.execConfigRead sec offset length source s
  | .configLock sec => Sys2Proof.Machine.execConfigLock sec s
  | .reloadConfig => Sys2Proof.Machine.execReloadConfig s
  | .calKey => Sys2Proof.Machine.execCalKey s
  | .calOverride hose k1000 c0 c1 c2 c3 => Sys2Proof.Machine.execCalOverride hose k1000 c0 c1 c2 c3 s
  | .calRevert hose => Sys2Proof.Machine.execCalRevert hose s
  | .proverArm hose preset => Sys2Proof.Machine.execProverArm hose preset s
  | .unknownRequest code payload => Sys2Proof.Machine.execUnknownRequest code payload s
  | .badFrame packet => Sys2Proof.Machine.execBadFrame packet s
  | .fetch count => Sys2Proof.Machine.execFetch count s
  | .coldReset steps => Sys2Proof.Machine.execColdReset steps s
  | .warmReset steps => Sys2Proof.Machine.execWarmReset steps s
  | .configLoadingComplete => Sys2Proof.Machine.execConfigLoadingComplete s
  | .startUpFirstBeacon => Sys2Proof.Machine.execStartUpFirstBeacon s
  | .clockTick => Sys2Proof.Machine.execClockTick s
  | .parityCheck => Sys2Proof.Machine.execParityCheck s
  | .meterPulse hose channel => Sys2Proof.Machine.execMeterPulse hose channel s
  | .measurementIntervalEnd hose temperature => Sys2Proof.Machine.execMeasurementIntervalEnd hose temperature s
  | .creepQuietTimerExpiry hose => Sys2Proof.Machine.execCreepQuietTimerExpiry hose s
  | .hookSwitchChange hose off => Sys2Proof.Machine.execHookSwitchChange hose off s
  | .lift hose => Sys2Proof.Machine.execLift hose s
  | .hang hose => Sys2Proof.Machine.execHang hose s
  | .armTimerExpiry hose => Sys2Proof.Machine.execArmTimerExpiry hose s
  | .startTimerExpiry hose => Sys2Proof.Machine.execStartTimerExpiry hose s
  | .noFlowTimerExpiry hose => Sys2Proof.Machine.execNoFlowTimerExpiry hose s
  | .holdTimerExpiry hose => Sys2Proof.Machine.execHoldTimerExpiry hose s
  | .tagLossTimerExpiry hose => Sys2Proof.Machine.execTagLossTimerExpiry hose s
  | .settleQuietTimerExpiry hose => Sys2Proof.Machine.execSettleQuietTimerExpiry hose s
  | .settleLimitTimerExpiry hose => Sys2Proof.Machine.execSettleLimitTimerExpiry hose s
  | .rampTick hose feedback => Sys2Proof.Machine.execRampTick hose feedback s
  | .valveDisagreementTimerExpiry hose => Sys2Proof.Machine.execValveDisagreementTimerExpiry hose s
  | .fieldStableTimeExpiry tagPresent => Sys2Proof.Machine.execFieldStableTimeExpiry tagPresent s
  | .tagRetryTimerExpiry => Sys2Proof.Machine.execTagRetryTimerExpiry s
  | .tagSendComplete => Sys2Proof.Machine.execTagSendComplete s
  | .tagByteReceived byte parity => Sys2Proof.Machine.execTagByteReceived byte parity s
  | .tagAnswerTimeout => Sys2Proof.Machine.execTagAnswerTimeout s
  | .tagAnswerEnd => Sys2Proof.Machine.execTagAnswerEnd s
  | .tagPresenceSample tagPresent => Sys2Proof.Machine.execTagPresenceSample tagPresent s
  | .queryTimerExpiry => Sys2Proof.Machine.execQueryTimerExpiry s
  | .idleTimerExpiry => Sys2Proof.Machine.execIdleTimerExpiry s
  | .probeSample tank level temperature => Sys2Proof.Machine.execProbeSample tank level temperature s
  | .gaugePeriodExpiry tank => Sys2Proof.Machine.execGaugePeriodExpiry tank s
  | .reconciliationEvaluation tank => Sys2Proof.Machine.execReconciliationEvaluation tank s
  | .demandExpiryTimerExpiry tank station => Sys2Proof.Machine.execDemandExpiryTimerExpiry tank station s
  | .pressureFeedbackChange tank on => Sys2Proof.Machine.execPressureFeedbackChange tank on s
  | .pumpStartTimerExpiry tank => Sys2Proof.Machine.execPumpStartTimerExpiry tank s
  | .pressureLossTimerExpiry tank => Sys2Proof.Machine.execPressureLossTimerExpiry tank s
  | .runOnTimerExpiry tank => Sys2Proof.Machine.execRunOnTimerExpiry tank s
  | .restTimerExpiry tank => Sys2Proof.Machine.execRestTimerExpiry tank s
  | .bayInputChange input line => Sys2Proof.Machine.execBayInputChange input line s
  | .bayInputDebounceExpiry input => Sys2Proof.Machine.execBayInputDebounceExpiry input s
  | .beaconPeriodExpiry => Sys2Proof.Machine.execBeaconPeriodExpiry s
  | .frameSendStart => Sys2Proof.Machine.execFrameSendStart s
  | .arbitrationLost => Sys2Proof.Machine.execArbitrationLost s
  | .sendError => Sys2Proof.Machine.execSendError s
  | .frameSent => Sys2Proof.Machine.execFrameSent s
  | .withdrawalTimerExpiry => Sys2Proof.Machine.execWithdrawalTimerExpiry s
  | .frameReceived ident length payload crc endField => Sys2Proof.Machine.execFrameReceived ident length payload crc endField s
  | .spillFrameTaken => Sys2Proof.Machine.execSpillFrameTaken s
  | .restoreFrameTaken => Sys2Proof.Machine.execRestoreFrameTaken s
  | .pumpFrameTaken => Sys2Proof.Machine.execPumpFrameTaken s
  | .gaugeFrameTaken => Sys2Proof.Machine.execGaugeFrameTaken s
  | .fillSummaryTaken => Sys2Proof.Machine.execFillSummaryTaken s
  | .accountQueryTaken => Sys2Proof.Machine.execAccountQueryTaken s
  | .accountReplyTaken => Sys2Proof.Machine.execAccountReplyTaken s
  | .beaconTaken => Sys2Proof.Machine.execBeaconTaken s
  | .silenceTimerExpiry station => Sys2Proof.Machine.execSilenceTimerExpiry station s
  | .recordWriteComplete => Sys2Proof.Machine.execRecordWriteComplete s
  | .checkpointWriteComplete => Sys2Proof.Machine.execCheckpointWriteComplete s
  | .persistedTotalsUpdateComplete => Sys2Proof.Machine.execPersistedTotalsUpdateComplete s
  | .consumeMarksComplete => Sys2Proof.Machine.execConsumeMarksComplete s
  | .configWriteComplete => Sys2Proof.Machine.execConfigWriteComplete s
  | .lockComplete => Sys2Proof.Machine.execLockComplete s
  | .receptionEndedLengthError length => Sys2Proof.Machine.execReceptionEndedLengthError length s

end Sys2Proof.Machine
end

