-- ==== Sys2Proof/Machine/Elapse.lean ====
section
/-! DEFINITION. One millisecond of the part's timers with no command waiting (log 2). -/

namespace Sys2Proof.Machine

/-- One millisecond of a timer: its remainder falls, not below 0; its expiry is a command. -/
def tickTimer (t : Timer) : Timer := t.map fun ms => ms - 1

/-- One millisecond of a fill's timers. -/
def Fill.elapse (f : Fill) : Fill :=
  { f with armT := tickTimer f.armT, startT := tickTimer f.startT, noFlowT := tickTimer f.noFlowT,
           holdT := tickTimer f.holdT, tagLossT := tickTimer f.tagLossT,
           settleQuietT := tickTimer f.settleQuietT, settleLimitT := tickTimer f.settleLimitT }

/-- One millisecond of a meter unit's timers. -/
def Meter.elapse (m : Meter) : Meter :=
  { m with interval := tickTimer m.interval,
           creep := m.creep.map fun c => { c with quietT := tickTimer c.quietT } }

/-- One millisecond of a hose. -/
def HoseUnit.elapse (u : HoseUnit) : HoseUnit :=
  { u with meter := u.meter.elapse, fill := u.fill.elapse, ramp := tickTimer u.ramp,
           hook := { u.hook with timer := tickTimer u.hook.timer },
           valve := { u.valve with timer := tickTimer u.valve.timer } }

/-- One millisecond of the tag interface. -/
def Tag.elapse (t : Tag) : Tag :=
  { t with fieldT := tickTimer t.fieldT, retryT := tickTimer t.retryT,
           windowT := tickTimer t.windowT, gapT := tickTimer t.gapT,
           sampleT := tickTimer t.sampleT }

/-- One millisecond of a home tank unit. -/
def HomeUnit.elapse (u : HomeUnit) : HomeUnit :=
  { u with sampleT := tickTimer u.sampleT, gaugeT := tickTimer u.gaugeT,
           evalT := tickTimer u.evalT }

/-- One millisecond of a pump controller. -/
def Pump.elapse (p : Pump) : Pump :=
  { p with remote := mapVec tickTimer p.remote, startT := tickTimer p.startT,
           lossT := tickTimer p.lossT, runOnT := tickTimer p.runOnT, restT := tickTimer p.restT }

/-- One millisecond of a bay input. -/
def InputUnit.elapse (u : InputUnit) : InputUnit := { u with timer := tickTimer u.timer }

/-- One millisecond of the shutdown unit. -/
def Shutdown.elapse (x : Shutdown) : Shutdown :=
  { x with estop := x.estop.elapse, sump := x.sump.elapse, bund := mapVec InputUnit.elapse x.bund }

/-- One millisecond of the link controller; a quiet line becomes idle (R134), also while no
bit rate is known (log 2). -/
def Link.elapse (l : Link) : Link :=
  { (if l.line = .wait then l.becomeIdle Config.idleBits else l) with
    withdrawT := tickTimer l.withdrawT, beaconT := tickTimer l.beaconT,
    peers := mapVec (fun e : Peer => { e with silenceT := tickTimer e.silenceT }) l.peers }

/-- One millisecond with no command waiting. -/
def State.elapse (s : State) : State :=
  { s with
    hoses := mapVec HoseUnit.elapse s.hoses,
    tag := s.tag.elapse,
    visit := { s.visit with queryT := tickTimer s.visit.queryT, idleT := tickTimer s.visit.idleT },
    home := mapVec (fun u => u.map HomeUnit.elapse) s.home,
    pumps := mapVec (fun p => p.map Pump.elapse) s.pumps,
    shut := s.shut.elapse,
    link := s.link.elapse,
    cfg := { s.cfg with parityT := tickTimer s.cfg.parityT },
    firstBeaconT := tickTimer s.firstBeaconT }

end Sys2Proof.Machine
end

