-- ==== Sys2Proof/Safety.lean ====
section
/-! DEFINITION. What the spec says of the whole station: the shutdown promise (R38, R131), the
places that keep an order or a bound, and the conditions under which commands act. -/

namespace Sys2Proof.Machine

/-- Places of a sparse table strictly rise from `k` on. -/
def risingFrom {α : Type} : Nat → List (Nat × α) → Bool
  | _, [] => true
  | k, (n, _) :: rest => decide (k ≤ n) && risingFrom (n + 1) rest

/-- Places of a sparse table strictly rise and stay below a bound. -/
def placesOk {α : Type} (bound : Nat) (l : List (Nat × α)) : Bool :=
  risingFrom 0 l && l.all fun e => decide (e.1 < bound)

/-- Section 9.1: the log is in its canonical form: slots rise, none at or above 1,024. -/
def Store.wf (st : Store) : Bool := placesOk Config.logSlots st.log

/-- R75: the account table is in its canonical form: positions rise, none at or above 96. -/
def Accounts.wf (a : Accounts) : Bool := placesOk Config.accountPositions a.records

/-- R143, R146: the queues keep their bounds of 8 and 16 frames. -/
def Link.bounded (l : Link) : Bool :=
  decide (l.txQueue.length ≤ Config.txPlaces) && decide (l.rxQueue.length ≤ Config.rxPlaces)

/-- R144: no pending offer is doubled. -/
def Link.pendsOnce (l : Link) : Bool := decide l.pendPump.Nodup && decide l.pendGauge.Nodup

/-- R143: a frame is being sent only while the line is SENDING, and one at most; at most one SPILL is
not being sent. -/
def Link.spillOnce (l : Link) : Bool :=
  decide ((l.txQueue.filter TxEntry.sending).length ≤ if l.line = .sending then 1 else 0) &&
    decide ((l.txQueue.filter (TxEntry.waits 0)).length ≤ 1)

/-- R155: the program job queue keeps its bound of 12 jobs. -/
def Nv.bounded (n : Nv) : Bool := decide (n.queue.length ≤ Config.jobPlaces)

/-- Section 7.9: no remote member's clear counter passes 1 between events; at 2 it is removed. -/
def Shutdown.countersOk (x : Shutdown) : Bool :=
  (indices 16).all fun p =>
    match x.sources[p] with
    | none => true
    | some y => decide (y.clear < 2)

/-- R157, R160: a record write in progress has taken a slot of the log that holds no UNCONSUMED
record. -/
def State.slotTaken (s : State) : Bool :=
  match s.nv.run.bind RecordRun.slot with
  | none => true
  | some n => decide (n < Config.logSlots) &&
      (match lookupAt n s.store.log with
       | none => true
       | some e => e.consumed)

/-- Section 9.1, R75, R160: log and account table are in their canonical forms and no record write
has taken the slot of an UNCONSUMED record. -/
def State.tablesOk (s : State) : Bool := s.store.wf && s.accounts.wf && s.slotTaken

/-- R143, R144, R146, R155: no queue holds more than its places, no pending offer is doubled and no
second SPILL waits. -/
def State.queuesOk (s : State) : Bool :=
  s.link.bounded && s.link.pendsOnce && s.link.spillOnce && s.nv.bounded

/-- R38, R131: while a shutdown stands every valve command is 0 and every fill is in a state that
moves no valve. -/
def State.ShutdownKept (s : State) : Prop :=
  s.shutdownStands = true →
    ∀ h : Hose, (s.fill h).valveCmd = 0 ∧
      ((s.fill h).state = .idle ∨ (s.fill h).state = .settling ∨ (s.fill h).state = .closing)

/-- R33, R34: FLOWING and SLOWING have an empty hold cause set, HELD has one that is not empty. -/
def State.HoldsOk (s : State) : Prop :=
  ∀ h : Hose, ((s.fill h).dispensing = true → (s.fill h).holds.isEmpty = true) ∧
    ((s.fill h).state = .held → (s.fill h).holds.isEmpty = false)

/-- R47, R49, R54, R57: the coil is off in OFF and WAITING NO_TAG and energised in every other
activation state. -/
def State.CoilOk (s : State) : Prop :=
  s.tag.coil = !(s.tag.act == .off || s.tag.act == .waitingNoTag)

/-- R106: a pump controller runs only for a tank homed at the station. -/
def State.PumpsHomed (s : State) : Prop :=
  ∀ t : Tank, s.home[t] = none → s.pumps[t] = none

/-! ## Frames -/

/-- What no event but a request, a job or a reset touches: queue of commands, pins read, store,
terminal line, mask, clock, start-up. -/
structure StillFrame (s t : State) : Prop where
  pending : t.pending = s.pending
  pressure : t.pressure = s.pressure
  store : t.store = s.store
  term : t.term = s.term
  mask : t.mask = s.mask
  clock : t.clock = s.clock
  clockUnset : t.clockUnset = s.clockUnset
  phase : t.phase = s.phase
  firstBeaconT : t.firstBeaconT = s.firstBeaconT
  lastReset : t.lastReset = s.lastReset

/-- What the close of an event leaves of the state `u` before it: everything but demand sets and
pumps with their views, fills that demand (which may start, be held or resume), the home units' own
draws, an OPEN or ENDING visit, a pending close or reload, and the queues of jobs and frames. -/
structure CloseFrame (u t : State) : Prop where
  still : StillFrame u t
  tag : t.tag = u.tag
  shut : t.shut = u.shut
  flags : u.flags &&& t.flags = u.flags
  cfg : t.cfg = { u.cfg with reloadPending := t.cfg.reloadPending, loading := t.cfg.loading }
  nv : t.nv = { u.nv with queue := t.nv.queue, held := t.nv.held, run := t.nv.run,
                          nextSeq := t.nv.nextSeq }
  link : t.link = { u.link with txQueue := t.link.txQueue, pendPump := t.link.pendPump,
                                pendGauge := t.link.pendGauge, pendBeacon := t.link.pendBeacon,
                                newBeacon := t.link.newBeacon, ownBeacon := t.link.ownBeacon, beaconT := t.link.beaconT }
  pends : u.link.pendsOnce = true → t.link.pendsOnce = true
  accounts : t.accounts = { u.accounts with records := t.accounts.records }
  visit : u.visit.state ≠ .ending → t.accounts = u.accounts ∧
    t.visit = { u.visit with idleT := t.visit.idleT } ∧
    (u.visit.state ≠ .opened → t.visit = u.visit)
  lane : u.closePending = false → t.laneClosed = u.laneClosed ∧ t.closePending = false
  hose : ∀ h : Hose, t.hoses[h] =
    { u.hoses[h] with
      fill := t.fill h,
      meter := { u.meter h with jobCreep := (t.meter h).jobCreep,
                                waitCreep := (t.meter h).waitCreep } }
  fill : ∀ h : Hose, t.fill h =
    { u.fill h with
      state := (t.fill h).state, seq := (t.fill h).seq, gross := (t.fill h).gross,
      net := (t.fill h).net, grossRes := (t.fill h).grossRes, netRes := (t.fill h).netRes,
      tempSum := (t.fill h).tempSum, startTime := (t.fill h).startTime,
      rampTarget := (t.fill h).rampTarget, released := (t.fill h).released,
      holds := (t.fill h).holds, nextMark := (t.fill h).nextMark, startT := (t.fill h).startT,
      noFlowT := (t.fill h).noFlowT, holdT := (t.fill h).holdT,
      tagLossT := (t.fill h).tagLossT }
  quiet : ∀ h : Hose, (u.fill h).demands = false → t.fill h = u.fill h
  volume : ∀ h : Hose, (u.fill h).state ≠ .starting →
    (t.fill h).state ≠ .starting ∧ t.fill h =
    { t.fill h with
      seq := (u.fill h).seq, gross := (u.fill h).gross, net := (u.fill h).net,
      grossRes := (u.fill h).grossRes, netRes := (u.fill h).netRes,
      tempSum := (u.fill h).tempSum, startTime := (u.fill h).startTime,
      released := (u.fill h).released, nextMark := (u.fill h).nextMark }

/-- R18: the meter units operate. -/
def State.MetersOperate (s : State) : Prop :=
  s.sectionValid .hoses = true ∧ s.sectionValid .products = true

/-- R119, R123, R133: what an event that starts in `s` and ends in `t` does not touch when it
concerns one hose: the tanks' and peers' fixed parts, the configuration's working copy and the
fills of other hoses that neither wait nor demand. -/
structure HoseFrame (s t : State) (h : Hose) : Prop where
  still : StillFrame s t
  data : t.cfg.data = s.cfg.data
  valid : t.cfg.valid = s.cfg.valid
  peers : t.link.peers = s.link.peers
  override : ∀ k : Hose, t.hoses[k].override = s.hoses[k].override
  hook : ∀ k : Hose, t.hoses[k].hook = s.hoses[k].hook
  meters : ∀ k : Hose, k ≠ h → t.meter k =
    { s.meter k with jobCreep := (t.meter k).jobCreep, waitCreep := (t.meter k).waitCreep }
  volumes : ∀ k : Hose, k ≠ h → (s.fill k).state ≠ .starting →
    (t.fill k).net = (s.fill k).net ∧ (t.fill k).gross = (s.fill k).gross ∧
    (t.fill k).seq = (s.fill k).seq ∧ (t.fill k).preset = (s.fill k).preset

/-- R37: the fill `f` has entered SETTLING as `g` with an end cause, its valve command now `cmd`. -/
structure FillSettles (f g : Fill) (c : EndCause) (cmd : Nat) : Prop where
  state : g.state = .settling
  endCause : g.endCause = some c
  holds : g.holds.isEmpty = true
  timers : g.noFlowT = none ∧ g.holdT = none ∧ g.tagLossT = none
  target : g.rampTarget = 0
  valve : g.valveCmd = cmd
  limit : g.settleLimitT = some 15000
  quiet : g.settleQuietT = if cmd = 0 then some 2000 else none
  volumes : g.net = f.net ∧ g.gross = f.gross ∧ g.grossRes = f.grossRes ∧ g.netRes = f.netRes ∧
    g.tempSum = f.tempSum
  identity : g.kind = f.kind ∧ g.tank = f.tank ∧ g.product = f.product ∧ g.seq = f.seq ∧
    g.machine = f.machine ∧ g.preset = f.preset ∧ g.flags = f.flags ∧
    g.startTime = f.startTime ∧ g.released = f.released ∧ g.lastOutcome = f.lastOutcome

/-- R23, R25: the fill `f` has returned to IDLE as `g` without a record. -/
structure FillDisarms (f g : Fill) (o : FillOutcome) : Prop where
  state : g.state = .idle
  kind : g.kind = none
  holds : g.holds.isEmpty = true
  timers : g.armT = none ∧ g.startT = none
  outcome : g.lastOutcome = some o
  valve : g.valveCmd = f.valveCmd ∧ g.rampTarget = f.rampTarget
  rest : g.net = f.net ∧ g.gross = f.gross ∧ g.seq = f.seq ∧ g.endCause = f.endCause ∧
    g.flags = f.flags

/-- R33, R34: a member has left the hold cause set of the fill on hose `h`, HELD in `s`, which is now `g`:
with the set `x` that is left not empty it stays HELD, with an empty one it resumes, its volumes, residues,
sequence and checkpoint mark kept. The no-flow timer then starts as R32 states, with the
released valve (log 17). -/
structure HoldLeft (s : State) (h : Hose) (g : Fill) (x : HoldSet) (loss : Timer) : Prop where
  stays : x.isEmpty = false → g = { s.fill h with holds := x, tagLossT := loss }
  resumes : x.isEmpty = true → g = { s.fill h with
    state := g.state, holds := x, rampTarget := g.rampTarget, noFlowT := g.noFlowT, holdT := none,
    tagLossT := none }
  flowing : x.isEmpty = true → ((s.hoseCfg h).slowDown.toNat : Int) < (s.fill h).remaining →
    g.state = .flowing ∧ g.rampTarget = s.fullCommand h
  slowing : x.isEmpty = true → (s.fill h).remaining ≤ ((s.hoseCfg h).slowDown.toNat : Int) →
    g.state = .slowing ∧ g.rampTarget = s.slowCommand h
  noFlow : x.isEmpty = true → g.noFlowT =
    if (s.fill h).released = true ∧ s.minOpening h ≤ (s.fill h).valveCmd then
      some ((s.fill h).noFlowT.getD ((s.hoseCfg h).noFlow.toNat * 1000))
    else none

/-- An effect on the fill of hose `h` alone, with its log reservation and event flags. -/
structure OneFill (s u : State) (h : Hose) : Prop where
  rest : u = { s with hoses := u.hoses, flags := u.flags,
                      nv := { s.nv with reservations := u.nv.reservations } }
  hose : u.hoses[h] = { s.hoses[h] with fill := u.fill h }
  others : ∀ k : Hose, k ≠ h → u.hoses[k] = s.hoses[k]

/-- R39, R73: the visit has entered ENDING with an outcome: its FILL-kind fills in ARMED and STARTING
are back in IDLE, every other fill stands. -/
structure VisitEnding (s u : State) (o : VisitOutcome) : Prop where
  rest : u = { s with visit := u.visit, hoses := u.hoses,
                      nv := { s.nv with reservations := u.nv.reservations } }
  visit : u.visit = { s.visit with state := .ending, queryT := none, idleT := none, note := none,
                                   lastOutcome := some o }
  hose : ∀ h : Hose, u.hoses[h] = { s.hoses[h] with fill := u.fill h }
  waiting : ∀ h : Hose, (s.fill h).kind = some .fill → (s.fill h).waits = true →
    FillDisarms (s.fill h) (u.fill h) .visitEnded
  others : ∀ h : Hose, ((s.fill h).kind = some .fill → (s.fill h).waits = false) →
    u.fill h = s.fill h

/-- R113, R114: the pump controller of a tank is now `q`: a PUMP frame is offered, the own view
follows it, and a view that leaves RUNNING holds the dispensing fills on the tank. -/
structure PumpMoves (s u : State) (t : Tank) (q : Pump) : Prop where
  rest : u = { s with pumps := put s.pumps t (some q), views := u.views, hoses := u.hoses,
                      link := s.link.offer (.pump t q.state q.reason), flags := u.flags }
  view : u.views[t] = { s.views[t] with pump := PumpView.known q.state q.reason }
  views : ∀ k : Tank, k ≠ t → u.views[k] = s.views[k]
  elsewhere : ∀ h : Hose, (s.fill h).tank ≠ some t → u.hoses[h] = s.hoses[h]
  lost : s.views[t].pump.isRunning = true → q.state ≠ .running → ∀ h : Hose,
    (s.fill h).tank = some t → (s.fill h).dispensing = true →
    (u.fill h).state = .held ∧ (u.fill h).holds.pumpLost = true ∧ (u.fill h).holdT = some 180000

/-- R104: the demand set of a controller is empty. -/
def Pump.Deserted (p : Pump) : Prop := p.own = false ∧ ∀ x : Station, p.remote[x] = none

/-- R38, R110, R131: a bay shutdown has begun: every valve command is 0, no fill runs or waits, no
contactor is on. -/
def State.BayStopped (s : State) : Prop :=
  (∀ k : Hose, (s.fill k).valveCmd = 0 ∧ (s.fill k).running = false ∧ (s.fill k).waits = false) ∧
  ∀ (x : Tank) (q : Pump), s.pumps[x] = some q →
    q.state ≠ .starting ∧ q.state ≠ .running ∧ q.state ≠ .runOn

/-- R152: the link `m` that follows `l` has the number and rate of a reload that waited, exactly where
its line is IDLE. -/
structure NumberFollows (l m : Link) : Prop where
  idle : m.line = .idle → m.next = none ∧ (m.number, m.rate) = l.next.getD (l.number, l.rate)
  other : m.line ≠ .idle → m.next = l.next ∧ m.number = l.number ∧ m.rate = l.rate

/-! ## The account table -/

/-- R75: the record `r` has been created in the table `a`, which is now `b`: in the lowest free of the 96
positions, or with none free in the place of the record used longest ago of those not in use, the lowest
position of equal ones, and one eviction counted. -/
structure Accounts.Created (a b : Accounts) (r : Account) : Prop where
  free : ∀ p, p < 96 → lookupAt p a.records = none → (∀ q, q < p → lookupAt q a.records ≠ none) →
    b = { a with records := insertAt p r a.records }
  full : (∀ q, q < 96 → lookupAt q a.records ≠ none) → ∀ p x, (p, x) ∈ a.records →
    x.inUse = false →
    (∀ q y, (q, y) ∈ a.records → y.inUse = false → x.lastUsed.toNat < y.lastUsed.toNat ∨
      x.lastUsed = y.lastUsed ∧ p ≤ q) →
    b = { a with records := insertAt p r a.records, evictions := Nat.min (a.evictions + 1) 65535 }

/-! ## Start-up recovery -/

/-- R132: a bay input is taken up when recovery ends: its raw input has read active since the reset
without interruption, and a bund sensor is that of a homed tank. -/
def State.TakesInput (s : State) (i : BayInput) : Prop :=
  (s.shut.input i).raw = true ∧ (s.shut.input i).sinceReset = true ∧
    ∀ t : Tank, i = .bund t → s.home[t] ≠ none

/-- R161, R132, R166: recovery has ended: what `u` holds after it, `v` being the state before its last
step. -/
structure RecoveryEnded (v u : State) : Prop where
  awaits : u.phase = .beacon ∧ u.firstBeaconT = some 100
  nv : u.nv = { v.nv with reservations := 0, unannounced := u.nv.unannounced,
                          recovery := .nothing }
  announced : ∀ n, n ∈ u.nv.unannounced ↔
    ∃ x, (n, x) ∈ u.store.log ∧ x.consumed = false ∧ x.record.kind = .fill
  nearlyFull : 960 ≤ v.unconsumed → u.flagSet .nv = true
  inputs : ∀ i, (v.TakesInput i →
      u.shut.input i = { v.shut.input i with debounced := true, timer := none }) ∧
    (¬ v.TakesInput i → u.shut.input i = v.shut.input i)
  causes : ∀ c, (∃ l, u.shut.origin = some l ∧ c ∈ l) ↔
    (∃ l, v.shut.origin = some l ∧ c ∈ l) ∨ ∃ i, v.TakesInput i ∧ c = inputCause i
  shut : u.shut = { v.shut with
    estop := u.shut.estop, sump := u.shut.sump, bund := u.shut.bund, origin := u.shut.origin,
    bayShutdowns := u.shut.bayShutdowns }
  stopped : (∃ i, v.TakesInput i) → v.holdsBay = false →
    u.BayStopped ∧ u.flagSet .shutdown = true
  spill : (∃ i, v.TakesInput i) → v.shut.origin = none →
    (v.link.txQueue.length < 8 ∨
      (v.link.txQueue.length = 8 ∧ ∃ e ∈ v.link.txQueue, e.sending = false)) →
    ∃ l, u.shut.origin = some l ∧ ∃ e ∈ u.link.txQueue, e.frame = .spill l ∧ e.sending = false
  quiet : (∀ i, ¬ v.TakesInput i) → u.shut = v.shut ∧ u.hoses = v.hoses ∧ u.pumps = v.pumps ∧
    u.link = v.link

/-- R143: the beacons that wait in the transmit queue or are pending. -/
def Link.unsentBeacons (l : Link) : Nat :=
  (l.txQueue.filter fun e => !e.sending && e.frame.kind == 7).length +
    (if l.pendBeacon.isSome then 1 else 0)

/-- R142: the summary of the record `r` in slot `n` is the next to be offered: no other unannounced record
has a sequence as low, and no fill beyond IDLE a lower one. -/
structure State.SummaryNext (s : State) (n : Nat) (r : Record) : Prop where
  recovered : s.phase = .beacon ∨ s.phase = .running
  unannounced : n ∈ s.nv.unannounced
  entry : (lookupAt n s.store.log).map LogEntry.record = some r
  oldest : ∀ k x, k ∈ s.nv.unannounced → k ≠ n → lookupAt k s.store.log = some x →
    r.seq.toNat < x.record.seq.toNat
  fills : ∀ h q, (s.fill h).state ≠ .idle → (s.fill h).seq = some q → r.seq.toNat ≤ q.toNat

/-- R163: the UNCONSUMED records at or below a sequence that are announced, or that are not. -/
def State.unconsumedBelow (s : State) (q : U32) (announced : Bool) : List (Nat × LogEntry) :=
  s.store.log.filter fun e => !e.2.consumed && decide (e.2.record.seq.toNat ≤ q.toNat) &&
    decide (e.1 ∉ s.nv.unannounced) == announced

/-- R166: the log holds the record of the checkpoint that the hose holds, if it holds one. -/
def Store.Recorded (st : Store) (h : Hose) : Prop :=
  ∀ b x, st.newerCopy h = some (b, x) → ∃ e ∈ st.log, e.2.record.seq = x.data.seq

/-- R166: the store `u` is `v` with the checkpoints of some hoses cleared. -/
structure CheckpointsCleared (v u : Store) (done : List Hose) : Prop where
  rest : u = { v with copyA := u.copyA, copyB := u.copyB }
  cleared : ∀ k ∈ done, v.newerCopy k ≠ none → u.copyA[k] = none ∧ u.copyB[k] = none
  others : ∀ k, k ∉ done ∨ v.newerCopy k = none →
    u.copyA[k] = v.copyA[k] ∧ u.copyB[k] = v.copyB[k]

/-- R158, R166: recovery waits in `u` for the record of the checkpoint `c` of hose `h`, the hoses `post`
still to do. -/
structure InterruptedAwaited (v u : State) (h : Hose) (post : List Hose) (c : Checkpoint) :
    Prop where
  rest : u = { v with store := u.store, nv := { v.nv with
    queue := u.nv.queue, run := u.nv.run, recovery := .record post } }
  run : ∃ n, u.nv.run = some { slot := n, seq := c.seq, reads := 0 }
  job : ∃ r : Record, u.nv.queue = [.record (.interrupted h) r] ∧ r.seq = c.seq ∧
    r.hose = some h ∧ r.tank = c.tank ∧ r.product = c.product ∧ r.net = c.net ∧
    r.gross = some c.gross ∧ r.preset = some c.preset ∧ r.startTime = c.startTime ∧
    r.endTime = v.clock ∧ r.endCause = some .interrupted ∧ r.flags.fill = c.flags ∧
    r.machineId = c.machine.map MachineFields.machineId ∧ r.damaged = false ∧
    r.kind = if c.machine = none then .prover else .fill

/-- R166: recovery has gone from `v` on, with the hoses `hs` to do, and stands in `u`: it clears the
checkpoints whose record the log holds, up to the first hose whose record it does not hold, and waits
for that record; with none it ends. -/
structure Recovers (v u : State) (hs : List Hose) : Prop where
  ended : (∀ h ∈ hs, v.store.Recorded h) →
    CheckpointsCleared v.store u.store hs ∧ RecoveryEnded v u
  awaited : ∀ pre h post b x, hs = pre ++ h :: post → (∀ k ∈ pre, v.store.Recorded k) →
    v.store.newerCopy h = some (b, x) → (∀ e ∈ v.store.log, e.2.record.seq ≠ x.data.seq) →
    CheckpointsCleared v.store u.store pre ∧ InterruptedAwaited v u h post x.data

/-! ## Words read with an error -/

/-- R164: the words of the store that `p` selects have been read in `s`, which is now `t`. Each that holds
one wrong bit raises the SC count, each that holds two the DC count, up to 15. The first of a kind is
captured while no capture of that kind is held, `errs` giving the order (log 68). The NV flag is set at a
double error and at a single one that is captured. -/
structure WordsRead (s t : State) (p : StoreError → Bool) : Prop where
  rest : t = { s with
    flags := t.flags,
    nv := { s.nv with sc := t.nv.sc, dc := t.nv.dc, scCap := t.nv.scCap, dcCap := t.nv.dcCap } }
  noSingle : s.store.errs.filter (fun e => p e && !e.double) = [] →
    t.nv.sc = s.nv.sc ∧ t.nv.scCap = s.nv.scCap
  single : ∀ e l, s.store.errs.filter (fun e => p e && !e.double) = e :: l →
    t.nv.sc = Nat.min (s.nv.sc + (l.length + 1)) 15 ∧
    t.nv.scCap = some (s.nv.scCap.getD (e.area, e.word))
  noDouble : s.store.errs.filter (fun e => p e && e.double) = [] →
    t.nv.dc = s.nv.dc ∧ t.nv.dcCap = s.nv.dcCap
  double : ∀ e l, s.store.errs.filter (fun e => p e && e.double) = e :: l →
    t.nv.dc = Nat.min (s.nv.dc + (l.length + 1)) 15 ∧
    t.nv.dcCap = some (s.nv.dcCap.getD (e.area, e.word))
  flagged : (∃ e ∈ s.store.errs, p e = true ∧ (e.double = true ∨ s.nv.scCap = none)) →
    t.flags = s.flags ||| EventFlag.nv.mask
  unflagged : (∀ e ∈ s.store.errs, p e = true → e.double = false ∧ s.nv.scCap ≠ none) →
    t.flags = s.flags

/-- R174: a section counts as locked: it is locked, or its lock word has a double error. -/
def Store.CountsLocked (st : Store) (sec : Section) : Prop :=
  st.locks[sec.index] = true ∨ ∃ e ∈ st.errs, e.area = .lock sec ∧ e.double = true

/-- R162, R164: the log entry `e` of slot `n` has been read in `s`, which is now `t`, and shown as `l`: one
with a double error is shown DAMAGED. That of the record being written is fresh (log 16). -/
structure RecordShown (s t : State) (n : Nat) (e : LogEntry) (l : List Byte) : Prop where
  read : s.takenSlot ≠ some n → WordsRead s t (fun x => x.area == .slot n)
  fresh : s.takenSlot = some n → t = s
  items : ∃ damaged : Bool, (damaged = true ↔ e.record.damaged = true ∨
      s.takenSlot ≠ some n ∧ ∃ x ∈ s.store.errs, x.area = .slot n ∧ x.double = true) ∧
    l = 1 :: e.record.bytes n (if e.consumed then 3 else 2) (s.announced n) damaged

/-! ## What a load leaves of tanks and hoses -/

/-- R85, R168: tank `t` is in the homed tank list in use in `u`, after a load in `s`: with the STATION and
TANKS sections valid the list that was loaded, else the one that was in use (log 10). -/
def State.HomedBy (s u : State) (t : Tank) : Prop :=
  if u.sectionValid .station = true ∧ u.sectionValid .tanks = true then
    s.store.config.station.homed.getLsbD t.val = true
  else s.home[t] ≠ none

/-- R85, R92, R117: what a load in `s` leaves in `u` of the home station, home tank unit and bund input of
tank `t`. A unit that the load creates starts as after a reset (R92, R86, R99), one of a tank that stays
homed is kept whole. -/
structure HomeLoaded (s u : State) (t : Tank) : Prop where
  station : u.cfg.homeOf[t] =
    if u.sectionValid .tanks = true then stationOf s.store.config.tanks[t].home else s.cfg.homeOf[t]
  homed : u.home[t] ≠ none ↔ s.HomedBy u t
  kept : ∀ x, s.home[t] = some x → u.home[t] ≠ none →
    u.home[t] = some x ∧ u.shut.bund[t] = s.shut.bund[t]
  created : ∀ x, s.home[t] = none → u.home[t] = some x →
    x = { cfg := s.store.config.tanks[t], level := none, t10 := 150, tempStatus := .valid,
          gross := none, overStrap := false, gauged := none, invalidRun := 0, fault := false,
          stockState := .gaugeFault, book := none, throughput := 0, throughputMl := 0,
          recon := .suspended, lossRun := 0, variance := 0, receipt := none, offered := false,
          sampleT := some 1000, gaugeT := none, evalT := some 60000 } ∧
    u.shut.bund[t] = { s.shut.bund[t] with
      debounced := false, timer := if s.shut.bund[t].raw = true then some 2000 else none }
  removed : s.home[t] ≠ none → u.home[t] = none →
    u.shut.bund[t] = { s.shut.bund[t] with debounced := false, timer := none }
  absent : s.home[t] = none → u.home[t] = none → u.shut.bund[t] = s.shut.bund[t]

/-- R106: what a load in `s` leaves in `u` of the pump controller of tank `t`: none with the STATION section
invalid or the tank not homed, else the one that ran, or a new one in RESTING. The PUMP frame of a new
one waits, unless the load changes number or rate (log 51). -/
structure PumpLoaded (s u : State) (t : Tank) : Prop where
  stopped : u.sectionValid .station = false ∨ u.home[t] = none → u.pumps[t] = none
  kept : ∀ q, s.pumps[t] = some q → u.sectionValid .station = true → u.home[t] ≠ none →
    u.pumps[t] = some q
  created : s.pumps[t] = none → u.sectionValid .station = true → u.home[t] ≠ none →
    u.pumps[t] = some
      { own := false, remote := Vector.replicate 16 none, state := .resting,
        reason := none, startT := none, lossT := none, runOnT := none,
        restT := some 10000, starts := 0, lockouts := 0 }
  frame : s.pumps[t] = none → u.pumps[t] ≠ none →
    (s.link.number = none ∨ s.link.next.getD (s.link.number, s.link.rate) =
      (stationOf s.store.config.station.number, s.store.config.station.rate)) →
    t ∈ u.link.pendPump ∨
      ∃ e ∈ u.link.txQueue, e.frame = .pump t .resting none ∧ e.sending = false

/-- R85, R106: a load in `s` that leads to `u` empties the view of tank `t`: the tank leaves the homed tank
list, or has home station 0 and is not homed here. -/
def State.EmptiesView (s u : State) (t : Tank) : Prop :=
  u.home[t] = none ∧ (s.home[t] ≠ none ∨ u.cfg.homeOf[t] = none)

/-- R85, R93, R106, R113: what a load in `s` leaves in `u` of the view of tank `t`. An emptied view keeps
its last GAUGE items and is not DEGRADED, any other stands but for the pump view (log 50). The own draw
totals move when a number is taken up for the first time (log 6). -/
structure ViewLoaded (s u : State) (t : Tank) : Prop where
  emptied : s.EmptiesView u t → u.views[t].stock = none ∧ u.views[t].state = .gaugeFault ∧
    u.views[t].noValue = true ∧ u.views[t].degraded = false ∧ u.views[t].pump = .unknown
  stands : ¬ s.EmptiesView u t → u.views[t].stock = s.views[t].stock ∧
    u.views[t].state = s.views[t].state ∧ u.views[t].noValue = s.views[t].noValue ∧
    u.views[t].degraded = s.views[t].degraded
  pumpStarts : s.pumps[t] = none → u.pumps[t] ≠ none → u.views[t].pump = .known .resting none
  pumpEnds : s.pumps[t] ≠ none → u.pumps[t] = none → u.views[t].pump = .unknown
  pumpStands : (s.pumps[t] = none ↔ u.pumps[t] = none) → ¬ s.EmptiesView u t →
    u.views[t].pump = s.views[t].pump
  rest : u.views[t].lastGauge = s.views[t].lastGauge ∧
    u.views[t].anomalies = s.views[t].anomalies ∧ u.views[t].foreign = s.views[t].foreign ∧
    (s.views[t].ownTotal = none →
      u.views[t].lastTotals = s.views[t].lastTotals ∧ u.views[t].ownTotal = none)
  flagged : u.views[t].state ≠ s.views[t].state → u.flagSet .stock = true

/-- R4, R18, R176: what a load in `s` leaves in `u` of the meter unit of hose `h`: no override, the Keff of
the loaded values for the band in use, a fault run of 0 while the meter units do not operate, and
band, counted pulses and creep accumulations as they stood. With the HOSES section invalid the Keff is
free in its range (log 46). -/
structure MeterLoaded (s u : State) (h : Hose) : Prop where
  override : u.hoses[h].override = none
  keff : u.sectionValid .hoses = true → ∀ c, c = s.store.config.hoses[h] →
    (u.meter h).keff = (((c.k1000.toNat : Int) *
      (1000000 + (#v[c.c0, c.c1, c.c2, c.c3])[(s.meter h).band].toInt) + 500000) / 1000000).toNat
  keffFree : u.sectionValid .hoses = false →
    950 ≤ (u.meter h).keff ∧ (u.meter h).keff ≤ 10499999
  runs : u.MetersOperate → (u.meter h).mismatchRun = (s.meter h).mismatchRun ∧
    (u.meter h).excessRun = (s.meter h).excessRun
  stopped : ¬ u.MetersOperate → (u.meter h).mismatchRun = 0 ∧ (u.meter h).excessRun = 0
  rest : u.meter h =
    { s.meter h with keff := (u.meter h).keff, mismatchRun := (u.meter h).mismatchRun,
                     excessRun := (u.meter h).excessRun, shown := (u.meter h).shown,
                     interval := (u.meter h).interval }

/-- R85, R101: the log reservations that a load in `s` releases on the way to `u`: those of the receipts of
the units it removes, and those of the fills that CONFIG_FAULT takes back to IDLE (R39). -/
def State.releasedBy (s u : State) : Nat :=
  ((indices 8).filter fun t => (s.home[t].bind HomeUnit.receipt).isSome && u.home[t].isNone).length +
    (if s.cfg.fault = false ∧ u.cfg.fault = true then
      ((indices 4).filter fun h => (s.fill h).waits).length
    else 0)

/-! ## Requests -/

/-- R190: the code and the payload length of a request's packet; none for what is not a well-framed
request packet. -/
def requestPacket : Instr → Option (Byte × Nat)
  | .readIdentity => some (0x01, 0)
  | .readStatus => some (0x02, 0)
  | .readHose _ => some (0x03, 1)
  | .readTankView _ => some (0x04, 1)
  | .readPeer _ => some (0x05, 1)
  | .openManualVisit _ _ => some (0x06, 8)
  | .closeVisit => some (0x07, 0)
  | .readVisit => some (0x08, 0)
  | .armHose _ _ _ => some (0x09, 6)
  | .stopHose _ => some (0x0A, 1)
  | .pauseHose _ => some (0x0B, 1)
  | .resumeHose _ => some (0x0C, 1)
  | .readAccount _ => some (0x0D, 4)
  | .readAccountAt _ => some (0x0E, 1)
  | .readRecord seq => some (0x0F, if seq.isSome then 4 else 0)
  | .consumeRecords _ => some (0x10, 4)
  | .receiptStart _ => some (0x11, 1)
  | .receiptEnd _ => some (0x12, 1)
  | .clearPumpLockout _ => some (0x13, 1)
  | .clearHoseFault _ => some (0x14, 1)
  | .clearLaneShutdown => some (0x15, 0)
  | .requestBayRestore => some (0x16, 0)
  | .closeLane => some (0x17, 0)
  | .openLane => some (0x18, 0)
  | .restart _ => some (0x19, 0)
  | .resetTagInterface => some (0x1A, 0)
  | .readEvents => some (0x1B, 0)
  | .clearEvents _ => some (0x1C, 2)
  | .setEventMask _ => some (0x1D, 2)
  | .setClock _ => some (0x1E, 4)
  | .readNvCounters => some (0x1F, 0)
  | .clearNvCounters => some (0x20, 0)
  | .configWriteEnable => some (0x21, 0)
  | .configWrite _ _ bytes => some (0x22, 3 + bytes.length)
  | .configRead _ _ _ _ => some (0x23, 5)
  | .configLock _ => some (0x24, 1)
  | .reloadConfig => some (0x25, 0)
  | .calKey => some (0x26, 0)
  | .calOverride _ _ _ _ _ _ => some (0x27, 21)
  | .calRevert _ => some (0x28, 1)
  | .proverArm _ _ => some (0x29, 5)
  | .unknownRequest code payload =>
    if packetUnknown code payload then some (code, payload.length) else none
  | _ => none

/-- R75, R76, R187: the fields of an account record as a reply shows them: machine id, class, capacities,
last fill hours, rate, fill count, total fuel, hours accounted, the three lube totals each with its
residue, source, stale mark, last used time and in-use mark. Their order is the model's (log 14). -/
def Account.Shown (a : Account) : List Byte :=
  beBytes 4 a.machineId.toNat ++ beBytes 1 a.cls.code ++ beBytes 2 a.fuelCap ++
  beBytes 2 a.lubeCap[0] ++ beBytes 2 a.lubeCap[1] ++ beBytes 2 a.lubeCap[2] ++
  beOpt 4 a.lastHours ++ beOpt 4 a.rate ++ beBytes 2 a.fillCount ++
  beBytes 4 a.totalFuel.toNat ++ beBytes 4 a.hoursAccounted.toNat ++
  beBytes 4 a.lubeTotals[0].toNat ++ beBytes 4 a.lubeRes[0] ++
  beBytes 4 a.lubeTotals[1].toNat ++ beBytes 4 a.lubeRes[1] ++
  beBytes 4 a.lubeTotals[2].toNat ++ beBytes 4 a.lubeRes[2] ++
  beBytes 1 a.source.code ++ [if a.stale then (1 : Byte) else 0] ++
  beBytes 4 a.lastUsed.toNat ++ [if a.inUse then (1 : Byte) else 0]

/-- R179: a request that the line may take: start-up has ended and the engine is free. -/
def State.LineFree (s : State) : Prop := s.started = true ∧ s.term.engine = none

/-- The state in which a request of `n` payload bytes has been clocked in and taken (R178). -/
def State.atRequest (s : State) (n : Nat) : State := (s.clockRequest n).taken

/-- The state with the reply of a request of `n` payload bytes that was taken and answered at once
(R178, R179): the reply held before is gone, latch and key are clear. -/
def State.replied (s : State) (code : Byte) (n : Nat) (st : Status) (items : List Byte) : State :=
  { s with
    term :=
      { s.term with
        slot := some { code := code, status := st, items := items }, ready := true,
        latch := false, key := false, dataOut := List.replicate (n + 3) 0xFF } }

/-- The state with the reply of a request that was not taken (R179): latch and key stand. -/
def State.turnedAway (s : State) (code : Byte) (n : Nat) (st : Status) : State :=
  { s with
    term :=
      { s.term with
        slot := some { code := code, status := st, items := [] }, ready := true,
        dataOut := List.replicate (n + 3) 0xFF } }

end Sys2Proof.Machine
end

