-- ==== Sys2Proof/Certificates/Slice0/Obligations.lean ====
section
/-! DEFINITION. The statements for the provers, each from the numbered rules of spec/. -/

section

open Sys2Proof Sys2Proof.Machine


/-! ## The queue of commands -/

/-- A step with a command at the front of the queue is that command on the state with the queue's
rest. With none, one millisecond passes: every running timer falls by 1, not below 0, a line in WAIT
becomes IDLE with 10 recessive bits (R134), where a dropped frame no longer bars a start (R135) and a
new number and rate are taken up (R152), and nothing else changes. That an empty queue lets a
millisecond pass is the model's choice (log 2). -/
def Obligations.StepRunsFront : Prop :=
  (∀ (c : Instr) (rest : List Instr) (s : State), s.pending = c :: rest →
    step s = exec c { s with pending := rest }) ∧
  ∀ (s : State) (ms : Timer → Timer), s.pending = [] → (∀ x, ms x = x.map fun n => n - 1) →
    ∃ t : State, step s = .next t ∧
      t = { s with
        hoses := t.hoses, home := t.home, pumps := t.pumps, shut := t.shut, link := t.link,
        tag := { s.tag with
          fieldT := ms s.tag.fieldT, retryT := ms s.tag.retryT, windowT := ms s.tag.windowT,
          gapT := ms s.tag.gapT, sampleT := ms s.tag.sampleT },
        visit := { s.visit with queryT := ms s.visit.queryT, idleT := ms s.visit.idleT },
        cfg := { s.cfg with parityT := ms s.cfg.parityT }, firstBeaconT := ms s.firstBeaconT } ∧
      (∀ h : Hose, t.hoses[h] = { s.hoses[h] with
        meter := { s.meter h with
          interval := ms (s.meter h).interval,
          creep := (s.meter h).creep.map fun c => { c with quietT := ms c.quietT } },
        fill := { s.fill h with
          armT := ms (s.fill h).armT, startT := ms (s.fill h).startT,
          noFlowT := ms (s.fill h).noFlowT, holdT := ms (s.fill h).holdT,
          tagLossT := ms (s.fill h).tagLossT, settleQuietT := ms (s.fill h).settleQuietT,
          settleLimitT := ms (s.fill h).settleLimitT },
        ramp := ms s.hoses[h].ramp,
        hook := { s.hoses[h].hook with timer := ms s.hoses[h].hook.timer },
        valve := { s.hoses[h].valve with timer := ms s.hoses[h].valve.timer } }) ∧
      (∀ k : Tank,
        t.home[k] = s.home[k].map (fun x => { x with
          sampleT := ms x.sampleT, gaugeT := ms x.gaugeT, evalT := ms x.evalT }) ∧
        t.pumps[k] = s.pumps[k].map (fun p => { p with
          remote := p.remote.map ms, startT := ms p.startT, lossT := ms p.lossT,
          runOnT := ms p.runOnT, restT := ms p.restT })) ∧
      t.shut = { s.shut with estop := t.shut.estop, sump := t.shut.sump, bund := t.shut.bund } ∧
      (∀ i, t.shut.input i = { s.shut.input i with timer := ms (s.shut.input i).timer }) ∧
      t.link = { s.link with
        line := t.link.line, idleCount := t.link.idleCount, dropped := t.link.dropped,
        number := t.link.number, rate := t.link.rate, next := t.link.next,
        withdrawT := ms s.link.withdrawT, beaconT := ms s.link.beaconT, peers := t.link.peers } ∧
      (∀ p : Station, t.link.peers[p] =
        { s.link.peers[p] with silenceT := ms s.link.peers[p].silenceT }) ∧
      (s.link.line = .wait → t.link.line = .idle ∧ t.link.idleCount = 10 ∧
        t.link.dropped = false ∧ NumberFollows s.link t.link) ∧
      (s.link.line ≠ .wait → t.link = { s.link with
        withdrawT := t.link.withdrawT, beaconT := t.link.beaconT, peers := t.link.peers })

/-- Every command completes in every state, leaving the queue's rest as it stands (R178, R179:
what the part cannot do it answers in a reply). -/
def Obligations.EveryCommandCompletes : Prop :=
  ∀ (c : Instr) (s : State), ∃ t : State, exec c s = .next t ∧ t.pending = s.pending

/-! ## Reset -/

/-- What a reset leaves (R19, R46, R47, R62, R76, R97, R105, R106, R114, R116, R149, R152, R154, R155,
R185) at `State.reset`: among it tank views without stock, no pump controller and no home unit before
the load, the state in which the load starts a controller (`Pump.reset`: no member in the demand set,
RESTING for 10 s), every peer entry not heard. Store clauses: the store as shipped (R154, section 9.1).
That the event flags are CLOCK_UNSET alone, with STARTED raised only when start-up ends, is the
model's choice (log 11, a conflict of R185's table with R186). -/
def Obligations.ResetValues : Prop :=
  (∀ h : Hose, (State.reset.meter h).chA = 0 ∧ (State.reset.meter h).chB = 0 ∧
    (State.reset.meter h).band = 0 ∧ (State.reset.meter h).mismatchRun = 0 ∧
    (State.reset.meter h).excessRun = 0 ∧ (State.reset.meter h).creep = none ∧
    (State.reset.meter h).jobCreep = none ∧ (State.reset.meter h).waitCreep = none ∧
    (State.reset.fill h).state = .idle ∧ (State.reset.fill h).valveCmd = 0 ∧
    (State.reset.fill h).kind = none ∧ (State.reset.fill h).gross = 0 ∧
    (State.reset.fill h).net = 0 ∧ (State.reset.fill h).seq = none ∧
    (State.reset.fill h).endCause = none ∧ (State.reset.fill h).holds.isEmpty = true ∧
    (State.reset.fill h).rampTarget = 0 ∧ (State.reset.fill h).released = false ∧
    (State.reset.fill h).lastOutcome = none ∧ State.reset.hoses[h].hook.debounced = none ∧
    State.reset.hoseFaulted h = false ∧ State.reset.hoses[h].override = none) ∧
  (∀ t : Tank, State.reset.home[t] = none ∧ State.reset.pumps[t] = none ∧
    State.reset.views[t].stock = none ∧ State.reset.views[t].state = .gaugeFault ∧
    State.reset.views[t].noValue = true ∧ State.reset.homeSilent t = false ∧
    State.reset.views[t].lastGauge = none ∧ State.reset.views[t].pump = .unknown ∧
    (∀ p : Station, State.reset.views[t].lastTotals[p] = none) ∧
    State.reset.views[t].anomalies = 0 ∧ State.reset.views[t].foreign = 0 ∧
    State.reset.shut.bund[t].debounced = false ∧ State.reset.shut.bund[t].timer = none) ∧
  Pump.reset.Deserted ∧ Pump.reset.state = .resting ∧ Pump.reset.reason = none ∧
  Pump.reset.restT = some 10000 ∧ Pump.reset.startT = none ∧ Pump.reset.lossT = none ∧
  Pump.reset.runOnT = none ∧ Pump.reset.starts = 0 ∧ Pump.reset.lockouts = 0 ∧
  (∀ p : Station, State.reset.link.peers[p] =
      { heard := false, epoch := none, lastAt := none, silenceT := none, fields := none,
        silent := false, epochChanges := 0, rejoins := 0, silences := 0 } ∧
    State.reset.shut.sources[p] = none ∧ State.reset.accounts.lastSummary[p] = 0) ∧
  State.reset.shut.origin = none ∧ State.reset.shut.latch = false ∧
  State.reset.link.line = .wait ∧ State.reset.link.idleCount = 0 ∧
  State.reset.link.pendPump = [] ∧ State.reset.link.pendGauge = [] ∧
  State.reset.link.pendBeacon = none ∧ State.reset.link.retry = 0 ∧
  State.reset.link.withdrawn = false ∧ State.reset.link.withdrawT = none ∧
  State.reset.link.dupStation = false ∧ State.reset.link.counts = LinkCounts.reset ∧
  State.reset.tag.act = .off ∧ State.reset.tag.coil = false ∧ State.reset.tag.block = none ∧
  State.reset.tag.lastReport = none ∧ State.reset.visit.state = .none ∧
  State.reset.accounts.records = [] ∧ State.reset.shutdownStands = false ∧
  State.reset.link.txQueue = [] ∧ State.reset.link.rxQueue = [] ∧
  State.reset.nv.queue = [] ∧ State.reset.nv.reservations = 0 ∧
  State.reset.term.slot = none ∧ State.reset.term.ready = false ∧
  State.reset.term.engine = none ∧ State.reset.term.latch = false ∧ State.reset.term.key = false ∧
  State.reset.flags = EventFlag.clockUnset.mask ∧ State.reset.mask = 0 ∧ State.reset.clock = 0 ∧
  State.reset.clockUnset = true ∧ State.reset.laneClosed = false ∧
  State.reset.closePending = false ∧ State.reset.started = false ∧
  State.reset.store.log = [] ∧ State.reset.store.epoch = 0 ∧ State.reset.store.highWater = 0

/-- The invariants of this file hold at reset. -/
def Obligations.ResetMeetsInvariants : Prop :=
  State.reset.tablesOk = true ∧ State.reset.queuesOk = true ∧ State.reset.ShutdownKept ∧
  State.reset.HoldsOk ∧ State.reset.CoilOk ∧ State.reset.PumpsHomed

/-- R185, R154: the resets. Both empty the reply slot, clear latch and key, open the lane and set the
mask to 0; the queue of commands, the pins and, with no job in progress, the store stand; a warm reset
keeps the clock and the ECC counts and captures. Of a job in progress the words before the cut are as
the job writes them and those from it on as they stood: of a record its slot without a marker, then the
record, its tank word, its totalled marker and the cleared checkpoint; of a checkpoint the older copy
cleared and then whole; of a configuration write its first words; of the rest one word, and of consume
marks none. An entry checkpoint has written the high-water with its first word (R156). Until its complete
marker is written recovery, which judges a job by its markers, finds the next sequence number as it was,
so the number of that fill is drawn again (R26, R165); that it finds so behind the first word too, for
which the model keeps the high-water as it stood before, is the model's reading (log 45). The
model's choices here: the flags at a reset (log 11), the raw pins that stand (log 4), how a job cut short at
step `n` leaves the store (log 9 for the width of a word, log 16, log 37, log 45, log 53), and the
values at reset of the parts that the spec gives none for (`Nv`, `Link`, `Tag`, `Meter`, `Fill`: logs 3,
5, 7). -/
def Obligations.Resets : Prop :=
  ∀ (s : State) (n : Nat), ∃ c w : State,
    exec (.coldReset n) s = .next c ∧ exec (.warmReset n) s = .next w ∧
    (s.LineFree → ∃ r : State, exec (.restart n) s = .next r ∧ r = w) ∧
    c.clock = 0 ∧ c.clockUnset = true ∧ c.flags = EventFlag.clockUnset.mask ∧
    c.nv = Nv.reset ∧ c.lastReset = .cold ∧
    w.clock = s.clock ∧ w.clockUnset = s.clockUnset ∧
    w.flags = (if s.clockUnset then EventFlag.clockUnset.mask else 0) ∧
    w.nv = { Nv.reset with sc := s.nv.sc, dc := s.nv.dc, scCap := s.nv.scCap,
                           dcCap := s.nv.dcCap } ∧
    w.lastReset = .warm ∧
    ∀ t, (t = c ∨ t = w) →
      t.pending = s.pending ∧ t.pressure = s.pressure ∧ t.mask = 0 ∧ t.laneClosed = false ∧
      t.closePending = false ∧ t.term = Term.reset ∧ t.tag = Tag.reset ∧ t.visit = Visit.reset ∧
      t.accounts = Accounts.reset ∧ t.link = Link.reset ∧ t.phase = .loading ∧
      t.cfg.loading = some .reset ∧ (∀ x : Tank, t.home[x] = none ∧ t.pumps[x] = none ∧
        t.views[x] = TankView.reset ∧ t.shut.bund[x].raw = s.shut.bund[x].raw ∧
        t.shut.bund[x].debounced = false) ∧
      t.shutdownStands = false ∧ t.shut.estop.raw = s.shut.estop.raw ∧
      t.shut.estop.debounced = false ∧ t.shut.sump.raw = s.shut.sump.raw ∧
      t.shut.sump.debounced = false ∧
      (∀ h : Hose, t.fill h = Fill.reset ∧ t.meter h = Meter.reset ∧
        t.hoses[h].hook.raw = s.hoses[h].hook.raw ∧ t.hoses[h].override = none ∧
        t.hoseFaulted h = false) ∧
      t.store = s.store.torn s.nv.queue.head? s.nv.run n ∧
      (s.nv.queue = [] → t.store = s.store) ∧
      (∀ o r js run k, s.nv.queue = .record o r :: js → s.nv.run = some run → run.slot = some k →
        t.store.config = s.store.config ∧ t.store.locks = s.store.locks ∧
        t.store.epoch = s.store.epoch ∧ t.store.highWater = s.store.highWater ∧
        t.store.highWaterBefore = s.store.highWaterBefore ∧
        (∀ i, i ≠ k → lookupAt i t.store.log = lookupAt i s.store.log) ∧
        (n = 0 → t.store = s.store) ∧ (n = 1 → lookupAt k t.store.log = none) ∧
        (2 ≤ n → lookupAt k t.store.log =
          some { record := { r with seq := run.seq }, totalled := decide (4 ≤ n),
                 consumed := false }) ∧
        (n < 3 ∨ r.kind = .receipt → t.store.totals = s.store.totals) ∧
        (3 ≤ n → r.kind ≠ .receipt → t.store.totals = put s.store.totals r.tank
          { total := s.store.totals[r.tank].total + BitVec.ofNat 32 r.net,
            applied := run.seq }) ∧
        (n < 5 ∨ o = .receipt ∨ (∃ h, o = .creep h) →
          t.store.copyA = s.store.copyA ∧ t.store.copyB = s.store.copyB) ∧
        (∀ h, 5 ≤ n → o = .fill h ∨ o = .interrupted h →
          t.store.copyA = put s.store.copyA h none ∧
          t.store.copyB = put s.store.copyB h none)) ∧
      (∀ h entry cp js, s.nv.queue = .checkpoint h entry cp :: js →
        t.store = { s.store with
          copyA := t.store.copyA, copyB := t.store.copyB, highWater := t.store.highWater,
          highWaterBefore := t.store.highWaterBefore, errs := t.store.errs } ∧
        (∀ k : Hose, k ≠ h → t.store.newerCopy k = s.store.newerCopy k) ∧
        (n = 0 ∨ entry = false → t.store.highWater = s.store.highWater ∧
          t.store.highWaterBefore = s.store.highWaterBefore) ∧
        (1 ≤ n → entry = true →
          t.store.highWater.toNat = max s.store.highWater.toNat cp.seq.toNat) ∧
        (n < 3 → t.store.nextSequence = s.store.nextSequence) ∧
        (3 ≤ n → entry = true → t.store.highWaterBefore = none) ∧
        (n < 2 → t.store.copyA = s.store.copyA ∧ t.store.copyB = s.store.copyB) ∧
        (n < 3 → t.store.newerCopy h = s.store.newerCopy h) ∧
        (n = 2 → t.store.copyA[h] = none ∨ t.store.copyB[h] = none) ∧
        (3 ≤ n → ∃ (b : Bool) (m : Nat),
          t.store.newerCopy h = some (b, { data := cp, complete := true, writes := m }) ∧
          ∀ x y, s.store.newerCopy h = some (x, y) → b = !x ∧ m = y.writes + 1)) ∧
      (∀ sec off data js, s.nv.queue = .configWrite sec off data :: js →
        t.store = { s.store with
          errs := t.store.errs,
          config := writeSection s.store.config sec off
            (data.take ((off / 4 + n) * 4 - off)) }) ∧
      (∀ sec js, s.nv.queue = .lock sec :: js → t.store = { s.store with
        errs := t.store.errs,
        locks := if n = 0 then s.store.locks else put s.store.locks sec.index true }) ∧
      (∀ e js, s.nv.queue = .epochUpdate e :: js → t.store = { s.store with
        errs := t.store.errs, epoch := if n = 0 then s.store.epoch else e }) ∧
      (∀ slots left js, s.nv.queue = .consume slots left :: js → t.store = s.store)

/-! ## Invariants of every step -/

/-- Every step keeps: the log and the account table in their canonical forms, no record write in the
slot of an UNCONSUMED record (section 9.1, R75, R160), no queue beyond its places (R143, R146, R155),
one frame at most being sent and one SPILL at most waiting in the transmit queue (R143), and no pending
offer doubled (R144). -/
def Obligations.StepKeepsTablesAndQueues : Prop :=
  (∀ s t : State, s.tablesOk = true → step s = .next t → t.tablesOk = true) ∧
  (∀ s t : State, s.queuesOk = true → step s = .next t → t.queuesOk = true)

/-- R38, R131: while a shutdown stands every valve command is 0. -/
def Obligations.StepKeepsShutdown : Prop :=
  ∀ s t : State, s.ShutdownKept → step s = .next t → t.ShutdownKept

/-- Every step keeps: a fill dispenses only with an empty hold cause set and is HELD only with one that
is not empty (R33, R34); the tag coil is energised exactly outside OFF and WAITING NO_TAG (R47 to
R60); a pump controller runs only for a homed tank (R106). -/
def Obligations.StepKeepsHoldsCoilAndPumps : Prop :=
  (∀ s t : State, s.HoldsOk → step s = .next t → t.HoldsOk) ∧
  (∀ s t : State, s.CoilOk → step s = .next t → t.CoilOk) ∧
  (∀ s t : State, s.PumpsHomed → step s = .next t → t.PumpsHomed)

/-- R159: no UNCONSUMED record is overwritten by any step: its slot goes on holding the same
record. -/
def Obligations.UnconsumedNeverOverwritten : Prop :=
  ∀ (s t : State) (n : Nat) (e : LogEntry), s.tablesOk = true → step s = .next t →
    lookupAt n s.store.log = some e → e.consumed = false →
    ∃ e', lookupAt n t.store.log = some e' ∧ e'.record = e.record

/-- R154, R155, R174: the store changes only at the completion of a program job or at a reset, and no
step unlocks a section. That State shows a job's words at its completion, where the spec writes them
one by one (R154, R157), is the model's choice (log 16), as is that a checkpoint copy of a record
already held is cleared at once in recovery, with no job (log 38). -/
def Obligations.StoreChangesOnlyByJobs : Prop :=
  (∀ (c : Instr) (s t : State), exec c s = .next t →
     (match c with
      | .recordWriteComplete | .checkpointWriteComplete | .persistedTotalsUpdateComplete
      | .consumeMarksComplete | .configWriteComplete | .lockComplete
      | .coldReset _ | .warmReset _ | .restart _ => True
      | _ => t.store = s.store)) ∧
  (∀ (s t : State) (i : Fin 5), step s = .next t → s.store.locks[i] = true →
     t.store.locks[i] = true)

/-! ## The close of an event -/

/-- The close of an event leaves everything but what follows from an event (section 2.3, R24, R72,
R73, R104, R140 to R144, R171, R183): `CloseFrame` lists it. -/
def Obligations.EventCloseFrame : Prop :=
  ∀ u s : State, CloseFrame u (u.settle s)

/-- What holds after the close of every event: each controller's demand set has its own member exactly
while the station demands the tank (R104); a visit in ENDING still has a FILL-kind fill beyond IDLE
(R73) and the idle timer of an OPEN visit runs exactly while none is (R72); a close or an automatic
reload that is pending waits for a fill (R171, R183); when no offer was pending twice, none is pending
while a place of the transmit queue is free (R144). A summary enters only after recovery and with no
beacon in the queue, one being sent among them, or pending, and is then the only one: it is that of the
unannounced record of the lowest sequence, which no fill beyond IDLE is below (R142). While all that R142
asks holds it is offered at once, with the fields of that record, behind the pending offers: no event
leaves a free place without it. After start-up the
close of an event that changed the demand mask, the spill flag, the visit machine id or the lane state
has formed one early beacon, with the new values, which restarts the 500 ms and waits or is pending in
the place of any older one while the STATION section is valid; the close of any other event, and every
one before the first beacon (R186), forms none (R140). That a pending offer of a tank that has left the
homed list is dropped is the model's choice (log 27). -/
def Obligations.EventCloseFollowUps : Prop :=
  (∀ u s t : State, t = u.settle s →
     (∀ x p, t.pumps[x] = some p → p.own = t.demandsTank x) ∧
     (t.visit.state = .ending → t.noVisitFill = false) ∧
     (t.visit.state = .opened → t.visit.idleT.isSome = t.noVisitFill) ∧
     (t.closePending = true → t.allIdle = false) ∧
     (t.cfg.reloadPending = true → t.cfg.loading = none → t.allIdle = false)) ∧
  (∀ u s t : State, t = u.settle s →
     u.link.pendsOnce = true → t.link.hasPlace = true →
     t.link.pendPump = [] ∧ t.link.pendGauge = [] ∧ t.link.pendBeacon = none) ∧
  (∀ u s t : State, t = u.settle s →
     (u.started = true →
       (t.demandMask ≠ s.demandMask ∨ t.shut.origin.isSome ≠ s.shut.origin.isSome ∨
         t.visitField ≠ s.visitField ∨ t.laneClosed ≠ s.laneClosed) →
       ∃ b : BeaconFields, t.link.ownBeacon = some b ∧ t.link.beaconT = some 500 ∧
         b.demand = t.demandMask ∧ b.spill = t.shut.origin.isSome ∧ b.machineId = t.visitField ∧
         b.lane = (if t.laneClosed then 2 else 1) ∧
         (t.sectionValid .station = true →
           t.link.unsentBeacons = Nat.max 1 u.link.unsentBeacons ∧
           (t.link.pendBeacon = none ∨ t.link.pendBeacon = some b) ∧
           ∀ e ∈ t.link.txQueue, e.sending = false → e.frame.kind = 7 → e.frame = .beacon b) ∧
         (t.sectionValid .station = false → t.link.unsentBeacons = u.link.unsentBeacons)) ∧
     ((u.started = false ∨ t.demandMask = s.demandMask ∧
         t.shut.origin.isSome = s.shut.origin.isSome ∧ t.visitField = s.visitField ∧
         t.laneClosed = s.laneClosed) →
       t.link.ownBeacon = u.link.ownBeacon ∧ t.link.beaconT = u.link.beaconT ∧
       t.link.unsentBeacons = u.link.unsentBeacons)) ∧
  (∀ (u s t : State) (n : Nat) (r : Record), t = u.settle s ∨ t = u.tidyQueue →
    t.SummaryNext n r → t.link.hasPlace = true → t.link.pendBeacon = none →
    (∀ x ∈ t.link.txQueue, x.frame.kind ≠ 7) → ∃ x ∈ t.link.txQueue, x.frame.kind = 4) ∧
  (∀ (u : State) (n : Nat) (r : Record), u.SummaryNext n r → u.link.hasPlace = true →
    u.link.pendPump = [] → u.link.pendGauge = [] → u.link.pendBeacon = none →
    (∀ x ∈ u.link.txQueue, x.frame.kind ≠ 4 ∧ x.frame.kind ≠ 7) →
    u.tidyQueue = { u with link := { u.link with txQueue := u.link.txQueue ++
      [{ frame := .summary n
           { seq := r.seq, machineId := r.machineId.getD 0, lubeSlot := r.lubeSlot,
             net := BitVec.ofNat 32 r.net, hours := r.hours.getD 0,
             dhUsed := (r.credit.map Credit.dhUsed).getD 0, rate := r.credit.bind Credit.rate,
             fillCount := (r.credit.map Credit.fillCount).getD 0 },
         sending := false }] } }) ∧
  ∀ (u t : State) (e : TxEntry) (n : Nat) (f : SummaryFields), t = u.tidyQueue →
    (∀ x ∈ u.link.txQueue, x.frame.kind ≠ 4) → e ∈ t.link.txQueue → e.frame = .summary n f →
    (u.phase = .beacon ∨ u.phase = .running) ∧ t.link.pendBeacon = none ∧
    (∀ x ∈ t.link.txQueue, x.frame.kind ≠ 7 ∧ (x.frame.kind = 4 → x = e)) ∧
    ∃ r : LogEntry, n ∈ u.nv.unannounced ∧ lookupAt n u.store.log = some r ∧
      f.seq = r.record.seq ∧ f.net = BitVec.ofNat 32 r.record.net ∧
      (∀ k x, k ∈ u.nv.unannounced → lookupAt k u.store.log = some x →
        r.record.seq.toNat ≤ x.record.seq.toNat) ∧
      ∀ (h : Hose) (q : U32), (u.fill h).state ≠ .idle → (u.fill h).seq = some q →
        r.record.seq.toNat ≤ q.toNat

/-- R24, R26, R31, R44: a fill in STARTING flows when the pump view of its tank shows RUNNING, its
home station is not SILENT, its hold cause set is empty and the tag, where one governs, is
CONFIRMED. It enters SLOWING when its preset is at or below the slow-down volume, else FLOWING,
with the next sequence number, volumes and residues 0, the valve not yet released, the no-flow timer
stopped (R32; also with a minimum opening of 0, the model's choice: log 17) and its entry checkpoint
queued. Without one of the conditions nothing changes. The first two clauses are of the
test of one fill; the last is of the close of every event `u.settle s`: a STARTING fill with a
condition unmet, the pump views taken after the demand sets, stays as it is, one with all met
flows. -/
def Obligations.FillEntersFlowing : Prop :=
  ∀ (s : State) (h : Hose),
    ((s.fill h).state = .starting → (s.fill h).holds.isEmpty = true →
      (s.tagGoverns h = true → s.tagConfirmed = true) →
      ∀ x, (s.fill h).tank = some x → s.views[x].pump.isRunning = true → s.homeSilent x = false →
        ∃ t : State, s.tryStart h = t ∧
          ((t.fill h).state =
            if (s.fill h).preset.getD 0 ≤ (s.hoseCfg h).slowDown.toNat then .slowing
            else .flowing) ∧
          (t.fill h).seq = some s.nv.nextSeq ∧ (t.fill h).gross = 0 ∧ (t.fill h).net = 0 ∧
          (t.fill h).grossRes = 0 ∧ (t.fill h).netRes = 0 ∧ (t.fill h).tempSum = 0 ∧
          (t.fill h).startTime = some s.clock ∧ (t.fill h).nextMark = some 50000 ∧
          (t.fill h).released = false ∧ (t.fill h).startT = none ∧ (t.fill h).noFlowT = none ∧
          ((s.fill h).valveCmd = 0 → (t.fill h).valveCmd = 0) ∧
          (∀ k : Hose, k ≠ h → t.hoses[k] = s.hoses[k]) ∧
          t.nv.nextSeq = s.nv.nextSeq + 1 ∧
          (s.nv.queue.tail.any (Job.isCheckpointOf h) = false →
            s.nv.held.any (Job.isCheckpointOf h) = false →
            s.nv.queue.length < 12 →
            ∃ cp : Checkpoint, t.nv.queue = s.nv.queue ++ [.checkpoint h true cp] ∧
              cp.seq = s.nv.nextSeq ∧
              cp.tank = x ∧ cp.net = 0 ∧ cp.gross = 0 ∧ cp.startTime = s.clock)) ∧
    ((s.fill h).state ≠ .starting ∨ (s.fill h).holds.isEmpty = false ∨
      (s.tagGoverns h = true ∧ s.tagConfirmed = false) ∨ (s.fill h).tank = none ∨
      (∃ x, (s.fill h).tank = some x ∧
        (s.views[x].pump.isRunning = false ∨ s.homeSilent x = true)) → s.tryStart h = s) ∧
    ∀ u v t : State, v = u.syncDemands → t = u.settle s → (u.fill h).state = .starting →
      ((u.fill h).holds.isEmpty = false ∨ (u.tagGoverns h = true ∧ u.tagConfirmed = false) ∨
        (u.fill h).tank = none ∨
        (∃ x, (u.fill h).tank = some x ∧
          (v.views[x].pump.isRunning = false ∨ u.homeSilent x = true)) →
        t.fill h = u.fill h) ∧
      ((u.fill h).holds.isEmpty = true → (u.tagGoverns h = true → u.tagConfirmed = true) →
        ∀ x, (u.fill h).tank = some x → v.views[x].pump.isRunning = true →
          u.homeSilent x = false →
          (t.fill h).state ≠ .starting ∧ (t.fill h).startTime = some u.clock ∧
          (t.fill h).net = 0 ∧ (t.fill h).gross = 0 ∧ (t.fill h).released = false ∧
          (t.fill h).nextMark = some 50000 ∧ (t.fill h).startT = none ∧
          (t.fill h).seq.isSome = true)

/-! ## The terminal line -/

/-- R178, R179, R190: while the engine executes or start-up has not ended every well-framed request is
answered BUSY and not taken: nothing changes but the reply slot, READY and the bytes shifted out.
Else an unknown request is taken and a bad frame is not; a fetch shifts out the reply held from the
second byte on, behind 0xFF, which is the model's choice for the first (log 91), and leaves it held. A packet is bad with fewer than 3 bytes, a length above 32, a count that is
not 3 + length, a wrong CRC-8 or a length its request does not allow; a framed packet reads as the
request of its code and payload. Operands that no packet carries (a fetch of no byte, a bad frame
that is none, an unknown request with a request code) change nothing: the model's choice (log 1). -/
def Obligations.TerminalLine : Prop :=
  (∀ (c : Instr) (code : Byte) (n : Nat) (s : State), requestPacket c = some (code, n) →
     ¬ s.LineFree → exec c s = .next (s.turnedAway code n .busy)) ∧
  (∀ (steps : Nat) (code : Byte) (p packet : List Byte) (c : Instr),
     requestOf steps code p = some c → requestPacket c = some (code, p.length) ∧
       (packet = [code, BitVec.ofNat 8 p.length] ++ p →
         transactionOf steps (packet ++ [crc8 packet]) = some c)) ∧
  (∀ (packet : List Byte) (code : Byte) (rest : List Byte), packet = code :: rest →
     (packetBad packet = true ↔ code ≠ 0 ∧
       (packet.length < 3 ∨ 32 < (u8At packet 1).toNat ∨
         packet.length ≠ 3 + (u8At packet 1).toNat ∨
         packet.getLast? ≠ some (crc8 packet.dropLast) ∨
         (code.toNat ≤ 0x29 ∧ requestOf 0 code (packet.drop 2).dropLast = none)))) ∧
  ((∀ (code : Byte) (payload : List Byte) (s : State),
     (code.toNat ≤ 0x29 ∨ 32 < payload.length →
       exec (.unknownRequest code payload) s = .next s) ∧
     (0x29 < code.toNat → payload.length ≤ 32 → s.LineFree →
       exec (.unknownRequest code payload) s =
         .next (s.replied code payload.length .unknownRequest []))) ∧
   (∀ (packet : List Byte) (s : State), packetBad packet = false →
     exec (.badFrame packet) s = .next s) ∧
   (∀ (code : Byte) (rest : List Byte) (s : State), packetBad (code :: rest) = true →
     ∃ st : Status, exec (.badFrame (code :: rest)) s =
       .next { s with term := { s.term with
         slot := some { code := code, status := st, items := [] }, ready := true,
         dataOut := List.replicate (rest.length + 1) 0xFF } } ∧
     (s.LineFree → st = .badFrame) ∧ (¬ s.LineFree → st = .busy)) ∧
   (∀ s : State, exec (.fetch 0) s = .next s) ∧
   (∀ (n : Nat) (s : State), 0 < n → ∃ out : List Byte,
     exec (.fetch n) s = .next { s with term := { s.term with dataOut := out, ready := false } } ∧
     out.length = n ∧
     (s.term.slot = none → out = List.replicate n 0xFF) ∧
     ∀ r, s.term.slot = some r →
       out.take (1 + r.bytes.length) = (0xFF :: r.bytes).take n ∧
       ∀ i b, 1 + r.bytes.length ≤ i → out[i]? = some b → b = 0xFF))

/-- R181: a flag stays until a CLEAR_EVENTS names it, CLOCK_UNSET until SET_CLOCK; what READ_EVENTS,
CLEAR_EVENTS and SET_EVENT_MASK answer; the attention line. That bits 12 to 15 of a request's mask
are ignored is the model's choice (log 32), as is the byte of the attention line in the reply
(log 14). -/
def Obligations.EventFlags : Prop :=
  (∀ (c : Instr) (s t : State) (e : EventFlag), exec c s = .next t → s.flagSet e = true →
    (match c with
     | .clearEvents named => named.getLsbD e.bit = false ∨ (e = .clockUnset ∧ s.clockUnset = true)
     | .setClock _ => e ≠ .clockUnset
     | .coldReset _ | .warmReset _ | .restart _ => False
     | _ => True) → t.flagSet e = true) ∧
  (∀ s : State, s.LineFree → exec .readEvents s = .next (s.replied 0x1B 0 .done
    (beBytes 2 s.flags.toNat ++ beBytes 2 s.mask.toNat ++ [if s.attention then (1 : Byte) else 0]))) ∧
  (∀ (s : State) (named : U16), s.LineFree → ∃ f : BitVec 12,
    exec (.clearEvents named) s =
      .next ({ s with flags := f }.replied 0x1C 2 .done (beBytes 2 f.toNat)) ∧
    ∀ e : EventFlag, f.getLsbD e.bit = (s.flagSet e && !(named.getLsbD e.bit &&
      !(e == .clockUnset && s.clockUnset)))) ∧
  (∀ (s : State) (mask : U16), s.LineFree →
    exec (.setEventMask mask) s =
      .next ({ s with mask := mask.truncate 12 }.replied 0x1D 2 .done [])) ∧
  (∀ s : State, s.attention = true ↔ ∃ e : EventFlag, s.flagSet e = true ∧
    s.mask.getLsbD e.bit = false) ∧
  (∀ (s : State) (n : Nat), ∃ c w : State, exec (.coldReset n) s = .next c ∧
    exec (.warmReset n) s = .next w ∧ c.mask = 0 ∧ w.mask = 0)

/-- R182: the clock. A tick adds 1 modulo 2^32, SET_CLOCK gives it its value and clears CLOCK_UNSET, a
cold reset unsets it and a warm one leaves it; no other event changes the clock or its unset
state. -/
def Obligations.ClockRule : Prop :=
  ((∀ s : State, exec .clockTick s = .next { s with clock := s.clock + 1 }) ∧
   (∀ (s : State) (v : U32), s.LineFree → ∃ f : BitVec 12,
     exec (.setClock v) s =
       .next ({ s with clock := v, clockUnset := false, flags := f }.replied 0x1E 4 .done []) ∧
     ∀ i, f.getLsbD i = (s.flags.getLsbD i && i != 10)) ∧
   (∀ (s : State) (n : Nat), ∃ c w : State, exec (.coldReset n) s = .next c ∧
     exec (.warmReset n) s = .next w ∧ c.clock = 0 ∧ c.clockUnset = true ∧
     w.clock = s.clock ∧ w.clockUnset = s.clockUnset)) ∧
  (∀ (c : Instr) (s t : State), exec c s = .next t →
     (match c with
      | .clockTick | .setClock _ | .coldReset _ | .warmReset _ | .restart _ => True
      | _ => t.clock = s.clock ∧ t.clockUnset = s.clockUnset))

/-- R19, R46, R61, R76, R103, R133, R153, R162, R164, R173, R177, R180, R192: a request that reads is
answered DONE with its items as they stand, or REFUSED with RANGE for an argument out of its range, and
changes nothing else, but that READ_RECORD and CONFIG_READ of the stored source read words of the store:
those in error are counted and captured (`WordsRead`, R164), a record with a double error is shown DAMAGED
(`RecordShown`), and a section whose lock word has one counts as locked (R174). (READ_RECORD is counted in
a record write in progress, a field of the model's own: log 16.) READ_ACCOUNT and READ_ACCOUNT_AT return
the record of the machine or of the position with all its fields, or show none, with the three counts;
CONFIG_READ the bytes of the stored or of the working section. READ_RECORD returns, without a sequence,
the UNCONSUMED record of the lowest one, with a sequence the complete record that has it, and shows none
found else; of a record write in progress its slot shows the record being written or none, never the one
before. The model's choices: part code and revision (log 13), the layouts of the replies (log 14), what a
write in progress shows (logs 16, 67), that a CONFIG_READ of a bad length or source and a
READ_HOSE of no hose are refused with RANGE (logs 31, 88), the meter items (log 42), the own entry and totals (logs 6, 66), ages by the clock (log 47), no
group of a missing controller (log 28), the own source and demand members (logs 64, 73), the sizes of
STATION and TANKS (log 79), words of 4 bytes (log 9), the order in which errors are captured (log 68). -/
def Obligations.ReadsChangeNothing : Prop :=
  (∀ s : State, s.LineFree →
     exec .readIdentity s = .next (s.replied 0x01 0 .done
       ([Config.partCode, Config.interfaceRevision,
         if s.sectionValid .station then s.cfg.data.station.number else 0] ++
         beBytes 2 s.link.epoch.toNat ++ [if s.lastReset = .cold then (1 : Byte) else 2] ++
         beBytes 4 s.clock.toNat ++ [if s.clockUnset then (1 : Byte) else 0])) ∧
     exec .readStatus s = .next (s.replied 0x02 0 .done
       (s.shutdownItems ++
        (allSections.flatMap fun sec => beBool (s.sectionValid sec)) ++
        (allSections.flatMap fun sec => beBool (s.locked sec)) ++ beBool s.cfg.fault ++
        beBool s.cfg.parityFault ++ beBool s.cfg.reloadPending ++ b2 s.cfg.parityFaults ++
        beBool s.term.latch ++ beBool s.term.key ++ (indices 4).flatMap s.overrideItem ++
        b2 s.flags.toNat ++ b2 s.mask.toNat ++ beBool s.attention ++
        b1 (if s.laneClosed then 2 else 1) ++ beBool s.closePending ++ bv32 s.clock ++
        beBool s.clockUnset ++ b1 s.visit.state.code ++
        (indices 4).flatMap (fun h => b1 (s.fill h).state.code) ++ beBool s.link.withdrawn ++
        beBool s.link.dupStation)) ∧
     (∀ (v : Visit) (g : Tag), v = s.visit → g = s.tag →
       exec .readVisit s = .next (s.replied 0x08 0 .done
         (b1 v.state.code ++ b1 (optCode VisitOrigin.code v.origin) ++
          optBv32 (v.tagId.map TagIdentity.serial) ++
          b4 (optCode BitVec.toNat (v.tagId.map TagIdentity.machineId)) ++
          b4 (optCode BitVec.toNat v.machineId) ++ b1 (optCode MachineClass.code v.cls) ++
          beOpt 2 v.fuelCap ++
          (match v.lubeCap with
           | none => List.replicate 6 0xFF
           | some x => b2 x[0] ++ b2 x[1] ++ b2 x[2]) ++
          beOpt 4 v.hours ++ beBool v.barred ++ beOpt 1 v.position ++ beOpt 2 v.queryT ++
          beOpt 2 (v.idleT.map fun x => x / 1000) ++ b1 (visitOutcomeCode v.lastOutcome) ++
          b1 g.act.code ++ b1 g.act.waitCode ++ beBool g.coil ++ b1 g.retry ++
          b1 (optCode TagReport.code g.lastReport) ++ b1 (optCode TagReason.code g.lastFault) ++
          tagBlockItems g.block ++ b2 g.reads ++ b2 g.retries ++ b2 g.faults ++ b2 g.overruns ++
          b2 g.hoursNotAdopted))) ∧
     exec .readNvCounters s = .next (s.replied 0x1F 0 .done
       (b1 s.nv.sc ++ b1 s.nv.dc ++ captureItem s.nv.scCap ++ captureItem s.nv.dcCap ++
        b1 s.nv.queue.length ++ b1 s.nv.held.length ++
        b1 (optCode Job.code s.nv.queue.head?) ++
        b2 (1024 - s.readLog.length) ++ b2 s.unconsumed ++
        b2 (s.readLog.filter fun e => e.2.consumed).length ++
        b2 s.nv.reservations ++ b2 s.nv.unannounced.length ++ bv32 s.nv.nextSeq ++
        bv32 s.store.highWater ++ bv16 s.store.epoch)) ∧
     (∀ (b : Byte) (h : Hose) (f : Fill) (m : MeterView), b.toNat = h.val → f = s.fill h →
       m = (s.meter h).shown → exec (.readHose b) s = .next (s.replied 0x03 1 .done
         (b1 f.state.code ++ b1 (optCode FillKind.code f.kind) ++ beOpt 4 f.preset ++
          b4 f.gross ++ b4 f.net ++ optBv32 f.seq ++ b2 f.valveCmd ++ b2 f.rampTarget ++
          beBool f.released ++
          b1 (bitsNat [f.holds.pumpLost, f.holds.homeSilent, f.holds.tagLost,
            f.holds.operator]) ++
          b1 (optCode EndCause.code f.endCause) ++ b1 (bitsNat f.flags.bits) ++
          b1 (optCode FillOutcome.code f.lastOutcome) ++
          beOpt 2 (f.armT.map fun x => x / 1000) ++ beOpt 2 (f.startT.map fun x => x / 1000) ++
          beOpt 2 (f.holdT.map fun x => x / 1000) ++
          beOpt 2 (f.tagLossT.map fun x => x / 1000) ++
          b1 m.band.val ++ b4 m.keff ++ b1 m.tempStatus.code ++ beInt 2 m.t10 ++ b2 m.n ++
          b1 m.mismatchRun ++ b1 m.excessRun ++ beBool m.accumulating ++ b4 m.gross ++
          b4 m.net ++ beBool m.waiting))) ∧
     (∀ b : Byte, 4 ≤ b.toNat → exec (.readHose b) s = .next (s.replied 0x03 1 .refused [12])) ∧
     (∀ (b : Byte) (t : Tank) (v : TankView), b.toNat = t.val + 1 → v = s.views[t] →
       exec (.readTankView b) s = .next (s.replied 0x04 1 .done
         (beOpt 4 (v.stock.map Stock.litres) ++ beOpt 4 (v.stock.map Stock.ml) ++
          b1 v.state.code ++ b1 (bitsNat [v.degraded, v.noValue]) ++ beBool (s.homeSilent t) ++
          (match v.lastGauge with
           | none => [0xFF, 0xFF, 0] ++ List.replicate 11 0xFF
           | some g => b2 g.level ++ b1 g.recon.code ++ beBool g.receipt ++ beBool g.overStrap ++
               beBool g.tempDefault ++ bv32 g.arrived ++ bv32 (s.clock - g.arrived)) ++
          b1 v.pump.code ++ b1 v.pump.reasonCode ++
          (indices 16).flatMap (fun p => optBv32 v.lastTotals[p]) ++ b2 v.anomalies ++
          b2 v.foreign ++
          (match s.home[t] with
           | none => []
           | some u => u.items t) ++
          (match s.pumps[t] with
           | none => []
           | some p => s.pumpItems t p)))) ∧
     (∀ b : Byte, b.toNat = 0 ∨ 8 < b.toNat →
       exec (.readTankView b) s = .next (s.replied 0x04 1 .refused [12])) ∧
     (∀ (b : Byte) (p : Station), b.toNat = p.val + 1 →
       exec (.readPeer b) s = .next (s.replied 0x05 1 .done
         (s.entryItems p ++ optBv32 (s.beaconAge p) ++
          (indices 8).flatMap (fun t => optBv32 s.views[t].lastTotals[p]) ++
          bv32 s.accounts.lastSummary[p] ++ s.link.items))) ∧
     ∀ b : Byte, b.toNat = 0 ∨ 16 < b.toNat →
       exec (.readPeer b) s = .next (s.replied 0x05 1 .refused [12])) ∧
  (∀ s : State, s.LineFree →
     (∀ seq, ∃ (l : List Byte) (t : State), exec (.readRecord seq) s =
       .next ((t.modNv fun n => { n with
         run := n.run.map fun x => { x with reads := x.reads + 1 } }).replied
           0x0F (match seq with | none => 0 | some _ => 4) .done l) ∧
       (∀ q, seq = some q → (∀ x ∈ s.readLog, x.2.record.seq ≠ q) → l = [0] ∧ t = s) ∧
       (∀ q n e, seq = some q → (n, e) ∈ s.readLog → e.record.seq = q →
         (∀ x ∈ s.readLog, x.2.record.seq = q → x = (n, e)) → RecordShown s t n e l) ∧
       (seq = none → (∀ x ∈ s.readLog, x.2.consumed = true ∨ s.takenSlot = some x.1) →
         l = [0] ∧ t = s) ∧
       ∀ n e, seq = none → (n, e) ∈ s.readLog → e.consumed = false → s.takenSlot ≠ some n →
         (∀ x ∈ s.readLog, x.2.consumed = false → s.takenSlot ≠ some x.1 →
           x = (n, e) ∨ e.record.seq.toNat < x.2.record.seq.toNat) →
         RecordShown s t n e l) ∧
     (s.takenSlot = none → s.readLog = s.store.log) ∧
     ∀ (o : RecordOwner) (r : Record) (js : List Job) (run : RecordRun) (k : Nat),
       s.nv.queue = .record o r :: js → s.nv.run = some run → run.slot = some k →
       (∀ n e, n ≠ k → ((n, e) ∈ s.readLog ↔ (n, e) ∈ s.store.log)) ∧
       ∀ e, (k, e) ∈ s.readLog → e.consumed = false ∧ e.record = { r with seq := run.seq }) ∧
  (∀ s : State, s.LineFree →
     (∀ m : U32, ∃ l : List Byte, exec (.readAccount m) s = .next (s.replied 0x0D 4 .done l) ∧
       ((∀ e ∈ s.accounts.records, e.2.machineId ≠ m) →
         l = [(0 : Byte)] ++ b2 s.accounts.conflicts ++ b2 s.accounts.lateReplies ++
           b2 s.accounts.evictions) ∧
       ∀ p a, (p, a) ∈ s.accounts.records → a.machineId = m →
         (∀ e ∈ s.accounts.records, e.2.machineId = m → e = (p, a)) →
         l = [(1 : Byte)] ++ a.Shown ++ b1 p ++ b2 s.accounts.conflicts ++
           b2 s.accounts.lateReplies ++ b2 s.accounts.evictions) ∧
     ∀ x : Byte, ∃ (st : Status) (l : List Byte),
       exec (.readAccountAt x) s = .next (s.replied 0x0E 1 st l) ∧
       (96 ≤ x.toNat → st = .refused ∧ l = [12]) ∧
       (x.toNat < 96 → st = .done) ∧
       (x.toNat < 96 → (∀ e ∈ s.accounts.records, e.1 ≠ x.toNat) →
         l = [(0 : Byte)] ++ b2 s.accounts.conflicts ++ b2 s.accounts.lateReplies ++
           b2 s.accounts.evictions) ∧
       ∀ a, x.toNat < 96 → lookupAt x.toNat s.accounts.records = some a →
         l = [(1 : Byte)] ++ a.Shown ++ b2 s.accounts.conflicts ++
           b2 s.accounts.lateReplies ++ b2 s.accounts.evictions) ∧
  (∀ (s : State) (b : Byte) (off : U16) (len src : Byte), s.LineFree →
     (sectionOf b = none → exec (.configRead b off len src) s =
       .next (s.replied 0x23 5 .refused [12])) ∧
     ∀ sec, sectionOf b = some sec →
       ((len.toNat = 0 ∨ 32 < len.toNat ∨ 1 < src.toNat ∨
           sectionSize sec < off.toNat + len.toNat) →
         exec (.configRead b off len src) s = .next (s.replied 0x23 5 .refused [12])) ∧
       (1 ≤ len.toNat → len.toNat ≤ 32 → off.toNat + len.toNat ≤ sectionSize sec →
         (src = 0 → ∀ touched : StoreError → Bool,
           (∀ e, touched e = true ↔ e.area = .config sec ∧
             off.toNat < (e.word + 1) * 4 ∧ e.word * 4 < off.toNat + len.toNat) →
           ∃ (m t : State) (lk single double : Bool),
             WordsRead s m touched ∧ WordsRead m t (fun e => e.area == .lock sec) ∧
             exec (.configRead b off len src) s = .next (t.replied 0x23 5 .done
               (((encodeSection s.store.config sec).drop off.toNat).take len.toNat ++
                 [lk, single, double].map (fun x => if x then (1 : Byte) else 0))) ∧
             (lk = true ↔ s.store.CountsLocked sec) ∧
             (single = true ↔ ∃ e ∈ s.store.errs, touched e = true ∧ e.double = false) ∧
             (double = true ↔ ∃ e ∈ s.store.errs, touched e = true ∧ e.double = true)) ∧
         (src = 1 → ∃ l : List Byte, exec (.configRead b off len src) s =
             .next (s.replied 0x23 5 .done l) ∧
           l = ((encodeSection s.cfg.data sec).drop off.toNat).take len.toNat ++
             [if s.sectionValid sec then (1 : Byte) else 0])))

/-! ## Metering -/

/-- R1, R3, R4, R6, R12, R13, R18: the meter unit. A pulse is counted while the hose's intervals run, up
to 65,535, and changes nothing else. An interval end takes the counts, selects the band from n,
recomputes Keff for another band to the nearest integer with an exact half up, takes the temperature
as used and judges the fault runs; the other hoses' meters and volumes stand. With the HOSES or
PRODUCTS section invalid it discards the counts, forms no increment and keeps the runs at 0. READ_HOSE
is given the meter fields as the interval end leaves them (`shown`). The model's choices: R19 over R46
for those fields and 150 as the t10 of an invalid input (log 42), and that an interval end of a unit
that does not operate leaves temperature status, t10 and n (log 43). -/
def Obligations.MeterUnit : Prop :=
  (∀ (h : Hose) (r : Reading) (s : State) (n : Nat),
     (s.meter h).interval.isSome = true → s.MetersOperate → n = Nat.min (s.meter h).chA 4095 →
     ∃ t : State, exec (.measurementIntervalEnd h r) s = .next t ∧ HoseFrame s t h ∧
       (t.meter h).chA = 0 ∧ (t.meter h).chB = 0 ∧ (t.meter h).interval = some 100 ∧
       (t.meter h).lastN = n ∧
       (t.meter h).band =
         (if n = 0 then (s.meter h).band
          else if n < (s.hoseCfg h).t1.toNat then 0
          else if n < (s.hoseCfg h).t2.toNat then 1
          else if n < (s.hoseCfg h).t3.toNat then 2 else 3) ∧
       ((t.meter h).band = (s.meter h).band → (t.meter h).keff = (s.meter h).keff) ∧
       ((t.meter h).band ≠ (s.meter h).band → (t.meter h).keff =
         (((s.k1000 h : Int) * (1000000 + s.correction h (t.meter h).band) + 500000) /
           1000000).toNat) ∧
       (∀ v, r = .value v → -400 ≤ v → v ≤ 800 →
         (t.meter h).lastT10 = v ∧ (t.meter h).tempStatus = .valid) ∧
       ((∀ v, r = .value v → v < -400 ∨ 800 < v) →
         (t.meter h).lastT10 = 150 ∧ (t.meter h).tempStatus = .default) ∧
       (t.meter h).mismatchRun =
         (if (s.meter h).chA ≤ (s.meter h).chB + 2 ∧ (s.meter h).chB ≤ (s.meter h).chA + 2 then 0
          else Nat.min ((s.meter h).mismatchRun + 1) 5) ∧
       (t.meter h).excessRun =
         (if (s.meter h).chA ≤ (s.hoseCfg h).burst.toNat then 0
          else Nat.min ((s.meter h).excessRun + 1) 3) ∧
       ∃ w : Bool, (t.meter h).shown = { (t.meter h).view with waiting := w }) ∧
  ((∀ (h : Hose) (c : Channel) (s : State), ∃ t : State, exec (.meterPulse h c) s = .next t ∧
     (∀ k : Hose, k ≠ h → t.hoses[k] = s.hoses[k]) ∧ t = { s with hoses := t.hoses } ∧
     t.hoses[h] = { s.hoses[h] with meter := t.meter h } ∧
     t.meter h = { s.meter h with chA := (t.meter h).chA, chB := (t.meter h).chB } ∧
     ((s.meter h).interval.isSome = true →
       (c = .a → (t.meter h).chA = Nat.min ((s.meter h).chA + 1) 65535 ∧
         (t.meter h).chB = (s.meter h).chB) ∧
       (c = .b → (t.meter h).chB = Nat.min ((s.meter h).chB + 1) 65535 ∧
         (t.meter h).chA = (s.meter h).chA))) ∧
   ∀ (h : Hose) (r : Reading) (s : State), (s.meter h).interval.isSome = true →
     ¬ s.MetersOperate → ∃ t : State, exec (.measurementIntervalEnd h r) s = .next t ∧
       t.meter h = { s.meter h with chA := 0, chB := 0, interval := some 100, mismatchRun := 0,
                                    excessRun := 0, shown := (t.meter h).shown } ∧
       (t.meter h).shown = (t.meter h).view ∧
       t = { s with hoses := t.hoses } ∧ t.hoses[h] = { s.hoses[h] with meter := t.meter h } ∧
       ∀ k : Hose, k ≠ h → t.hoses[k] = s.hoses[k])

/-- R2, R5, R7 to R10: an interval end of a fill in FLOWING, SLOWING or SETTLING goes to the fill,
with the Keff in use after R3 and the factor F: volumes, residues, temperature sum and flags; the
net stops at 9,999,999 mL, which sets LIMIT and ends a running fill by emergency close. The model's
choices: that the gross is kept modulo 2^32 (log 23), and that the end cause is LIMIT where the same
interval also raises a fault (log 15's order of an interval end). -/
def Obligations.IntervalToFill : Prop :=
  ∀ (h : Hose) (r : Reading) (s : State) (f : Fill), f = s.fill h →
    (s.meter h).interval.isSome = true → s.MetersOperate →
    f.state = .flowing ∨ f.state = .slowing ∨ f.state = .settling →
    ∃ (t : State) (F g v : Nat), exec (.measurementIntervalEnd h r) s = .next t ∧
      F = (max 900000 (min 1100000 (1000000 -
        ((s.alpha (s.hoseCfg h).product : Int) * ((t.meter h).lastT10 - 150)).tdiv 10))).toNat ∧
      g = ((t.meter h).lastN * 1000000 + f.grossRes) / (t.meter h).keff ∧
      (t.fill h).grossRes = ((t.meter h).lastN * 1000000 + f.grossRes) % (t.meter h).keff ∧
      v = (g * F + f.netRes) / 1000000 ∧ (t.fill h).netRes = (g * F + f.netRes) % 1000000 ∧
      (t.fill h).gross = (f.gross + g) % 4294967296 ∧
      (t.fill h).net = Nat.min (f.net + v) 9999999 ∧
      (t.fill h).tempSum = f.tempSum + (g : Int) * (t.meter h).lastT10 ∧
      (t.fill h).flags =
        { f.flags with overrange := f.flags.overrange || decide (4095 < (s.meter h).chA),
                       tempDefault := f.flags.tempDefault || (t.meter h).tempStatus == .default,
                       limit := f.flags.limit || decide (9999999 < f.net + v) } ∧
      ((t.meter h).tempStatus = .default → f.flags.tempDefault = false →
        t.flagSet .temp = true) ∧
      (9999999 < f.net + v → f.flags.limit = false → f.state ≠ .settling →
        (t.fill h).state = .settling ∧ (t.fill h).endCause = some .limit ∧
        (t.fill h).valveCmd = 0) ∧
      (t.meter h).creep = (s.meter h).creep ∧ (t.fill h).preset = f.preset ∧
      (t.fill h).seq = f.seq ∧ (t.fill h).machine = f.machine

/-- R2, R14 to R16: an interval end in any other fill state goes to the creep accumulator: an open
accumulation takes it, n above 0 opens one, n = 0 with none open opens none; the gross first above
the creep limit raises CREEP, which latches the lane shutdown. The model's choices: the accumulation
takes the tank and product that its hose has at each interval (log 21), a gross that a reload has left
above the limit raises CREEP at the next of these interval ends (log 75), and the SHUTDOWN flag is set
also for a hose that the lane list holds already (log 65). -/
def Obligations.IntervalToCreep : Prop :=
  ∀ (h : Hose) (r : Reading) (s : State), (s.meter h).interval.isSome = true → s.MetersOperate →
    (s.fill h).state ≠ .flowing → (s.fill h).state ≠ .slowing → (s.fill h).state ≠ .settling →
    ∃ (t : State) (F : Nat), exec (.measurementIntervalEnd h r) s = .next t ∧
      F = (max 900000 (min 1100000 (1000000 -
        ((s.alpha (s.hoseCfg h).product : Int) * ((t.meter h).lastT10 - 150)).tdiv 10))).toNat ∧
      ((s.meter h).creep = none → (t.meter h).lastN = 0 → (t.meter h).creep = none) ∧
      ∀ c, ((s.meter h).creep = some c ∨ ((s.meter h).creep = none ∧ 0 < (t.meter h).lastN ∧
          c = { tank := c.tank, product := c.product,
                gross := 0, net := 0, grossRes := 0, netRes := 0, tempSum := 0,
                flags := { overrange := false, tempDefault := false, limit := false },
                startTime := s.clock, quietT := some 60000, raised := false })) →
        ∃ (d : Creep) (g v : Nat), (t.meter h).creep = some d ∧
          g = ((t.meter h).lastN * 1000000 + c.grossRes) / (t.meter h).keff ∧
          d.grossRes = ((t.meter h).lastN * 1000000 + c.grossRes) % (t.meter h).keff ∧
          v = (g * F + c.netRes) / 1000000 ∧ d.netRes = (g * F + c.netRes) % 1000000 ∧
          d.gross = Nat.min (c.gross + g) 9999999 ∧ d.net = Nat.min (c.net + v) 9999999 ∧
          d.tempSum = c.tempSum + (g : Int) * (t.meter h).lastT10 ∧
          d.startTime = c.startTime ∧ d.product = (s.hoseCfg h).product ∧
          (∀ x, tankOf (s.hoseCfg h).tank = some x → d.tank = x) ∧
          d.quietT = (if 0 < (t.meter h).lastN then some 60000 else c.quietT) ∧
          d.flags.overrange = (c.flags.overrange || decide (4095 < (s.meter h).chA)) ∧
          d.flags.tempDefault = (c.flags.tempDefault || (t.meter h).tempStatus == .default) ∧
          d.flags.limit = (c.flags.limit || decide (9999999 < c.gross + g) ||
            decide (9999999 < c.net + v)) ∧
          d.raised = (c.raised || decide ((s.hoseCfg h).creepLimit.toNat < d.gross)) ∧
          (c.raised = false → (s.hoseCfg h).creepLimit.toNat < d.gross →
            t.shut.latch = true ∧ t.shut.creepList[h] = true ∧ t.flagSet .shutdown = true ∧
            (s.shut.latch = false → ∀ k : Hose, (t.fill k).valveCmd = 0))

/-- R12, R13, R118, R119, R123, R38: a mismatch run that reaches 5 and a valve disagreement of 2 s
raise a hose fault, an excess-flow run that reaches 3 a bay cause: the SHUTDOWN flag is set, a
running fill is in SETTLING with its valve command 0, a waiting one in IDLE. That its last outcome is
HOSE_FAULT where the same interval end also raises EXCESS_FLOW or CREEP follows the order of log 15,
the model's choice. -/
def Obligations.DetectorsRaise : Prop :=
  ∀ (h : Hose) (s : State),
    (∀ r, (s.meter h).interval.isSome = true → s.MetersOperate →
      (¬ ((s.meter h).chA ≤ (s.meter h).chB + 2 ∧ (s.meter h).chB ≤ (s.meter h).chA + 2) →
        (s.meter h).mismatchRun = 4 → s.hoseFaulted h = false →
        ∃ t : State, exec (.measurementIntervalEnd h r) s = .next t ∧
          t.hoses[h].faults = { meter := true, valve := false } ∧
          t.flagSet .shutdown = true ∧
          ((s.fill h).running = true → (t.fill h).state = .settling ∧ (t.fill h).valveCmd = 0) ∧
          ((s.fill h).waits = true → (t.fill h).state = .idle ∧
            (t.fill h).lastOutcome = some (.ended .hoseFault))) ∧
      ((s.hoseCfg h).burst.toNat < (s.meter h).chA → (s.meter h).excessRun = 2 →
        s.shut.origin = none → s.holdsBay = false →
        ∃ t : State, exec (.measurementIntervalEnd h r) s = .next t ∧
          t.shut.origin = some [.excessFlow h] ∧ t.holdsBay = true ∧
          t.flagSet .shutdown = true ∧
          ∀ k : Hose, (t.fill k).valveCmd = 0 ∧ (t.fill k).running = false ∧
            (t.fill k).waits = false)) ∧
    (s.hoses[h].valve.timer.isSome = true → s.hoses[h].faults.valve = false →
      s.hoseFaulted h = false →
      ∃ t : State, exec (.valveDisagreementTimerExpiry h) s = .next t ∧ StillFrame s t ∧
        t.hoses[h].faults = { meter := false, valve := true } ∧
        t.hoses[h].valve = { timer := none, present := true } ∧ t.flagSet .shutdown = true ∧
        ((s.fill h).running = true → (t.fill h).state = .settling ∧
          (t.fill h).endCause = some .hoseFault ∧ (t.fill h).valveCmd = 0) ∧
        ((s.fill h).waits = true → (t.fill h).state = .idle ∧
          (t.fill h).lastOutcome = some (.ended .hoseFault)))

/-- R31, R32, R41, R44: at an interval end without a fault or a limit, a fill in FLOWING ends with PRESET
at or below the close-ahead volume, else enters SLOWING at or below the slow-down volume; one in
SLOWING ends with PRESET the same way; above them its state stands, and with n above 0 its no-flow timer,
where it runs, starts again at the hose's no-flow time. One in SETTLING stays there with its end cause,
command and limit timer; with n above 0 its settle quiet timer starts again at 2 s while the command is 0.
The remaining volume is the one the interval leaves. In all three states: with the net below its
checkpoint mark the mark stands; with the net at or above it the mark rises by 50,000 mL and a checkpoint
of the fill as it then stands is queued, or replaces the one of its hose that waits. `u` is the state
before the close of the event. -/
def Obligations.RemainingVolumeMovesFill : Prop :=
  ∀ (h : Hose) (r : Reading) (s : State), (s.meter h).interval.isSome = true → s.MetersOperate →
    (s.meter h).chA ≤ (s.meter h).chB + 2 → (s.meter h).chB ≤ (s.meter h).chA + 2 →
    (s.meter h).chA ≤ (s.hoseCfg h).burst.toNat →
    (s.fill h).state = .flowing ∨ (s.fill h).state = .slowing ∨ (s.fill h).state = .settling →
    (s.fill h).preset.isSome = true →
    ∃ (u : State) (rem : Int), exec (.measurementIntervalEnd h r) s = .next (u.settle s) ∧
      rem = ((s.fill h).preset.getD 0 : Int) - ((u.fill h).net : Int) ∧
      ((u.fill h).flags.limit = (s.fill h).flags.limit →
        ((s.fill h).state ≠ .settling → rem ≤ ((s.hoseCfg h).closeAhead.toNat : Int) →
          (u.fill h).state = .settling ∧ (u.fill h).endCause = some .preset ∧
          (u.fill h).rampTarget = 0 ∧ (u.fill h).settleLimitT = some 15000 ∧
          (u.fill h).valveCmd = (s.fill h).valveCmd ∧ (u.fill h).noFlowT = none) ∧
        ((s.fill h).state ≠ .settling → ((s.hoseCfg h).closeAhead.toNat : Int) < rem →
          ((s.fill h).state = .slowing ∨ ((s.hoseCfg h).slowDown.toNat : Int) < rem →
            (u.fill h).state = (s.fill h).state) ∧
          ((s.fill h).state = .flowing → rem ≤ ((s.hoseCfg h).slowDown.toNat : Int) →
            (u.fill h).state = .slowing ∧ (u.fill h).rampTarget = s.slowCommand h) ∧
          (u.fill h).noFlowT =
            if 0 < (s.meter h).chA then
              (s.fill h).noFlowT.map fun _ => (s.hoseCfg h).noFlow.toNat * 1000
            else (s.fill h).noFlowT) ∧
        ((s.fill h).state = .settling →
          (u.fill h).state = .settling ∧ (u.fill h).endCause = (s.fill h).endCause ∧
          (u.fill h).rampTarget = (s.fill h).rampTarget ∧
          (u.fill h).valveCmd = (s.fill h).valveCmd ∧
          (u.fill h).settleLimitT = (s.fill h).settleLimitT ∧
          (u.fill h).settleQuietT =
            if 0 < (s.meter h).chA ∧ (s.fill h).valveCmd = 0 then some 2000
            else (s.fill h).settleQuietT)) ∧
      ∀ m, (s.fill h).nextMark = some m →
        ((u.fill h).net < m → (u.fill h).nextMark = some m ∧ u.nv = s.nv) ∧
        (m ≤ (u.fill h).net → (u.fill h).nextMark = some (m + 50000) ∧
          ∀ x, (s.fill h).tank = some x → ∃ cp : Checkpoint, cp = (u.fill h).checkpoint x ∧
            (s.nv.queue.tail.any (Job.isCheckpointOf h) = false →
              s.nv.held.any (Job.isCheckpointOf h) = false → s.nv.queue.length < 12 →
              u.nv.queue = s.nv.queue ++ [.checkpoint h false cp] ∧ u.nv.held = s.nv.held) ∧
            (s.nv.queue.tail.any (Job.isCheckpointOf h) = true ∨
              s.nv.held.any (Job.isCheckpointOf h) = true →
              u.nv.queue = s.nv.queue.take 1 ++
                s.nv.queue.tail.map (replaceCheckpoint h false cp) ∧
              u.nv.held = s.nv.held.map (replaceCheckpoint h false cp)))

/-- R17, R18: the quiet timer of an open accumulation ends it: with net 0 no record is made; with more
a closed creep of the hose's tank and product waits, merged into one that waits already, and its
CREEP record job is queued when no creep of the station waits or is being written. The model's
choices: with the HOSES section invalid the tank and product are those of the accumulation's last
interval (log 21), and a creep merged into one of another tank takes that one's (log 44). -/
def Obligations.CreepEnds : Prop :=
  ∀ (h : Hose) (s : State) (c : Creep), (s.meter h).creep = some c → c.quietT.isSome = true →
    ∃ t : State, exec (.creepQuietTimerExpiry h) s = .next t ∧ StillFrame s t ∧
      (t.meter h).creep = none ∧ (∀ k : Hose, t.fill k = s.fill k) ∧
      (∀ k : Hose, k ≠ h → (t.meter k).creep = (s.meter k).creep) ∧
      (c.net = 0 → (t.meter h).waitCreep.isSome = true → (s.meter h).waitCreep.isSome = true) ∧
      ∃ (x : Tank) (code : Byte),
      (∀ y, s.sectionValid .hoses = true → tankOf (s.hoseCfg h).tank = some y → x = y) ∧
      (s.sectionValid .hoses = false → x = c.tank ∧ code = c.product) ∧
      (s.sectionValid .hoses = true → code = (s.hoseCfg h).product) ∧
      ((∀ k : Hose, (s.meter k).waitCreep = none) → s.noCreepJob = true →
        (c.net = 0 → t.nv = s.nv) ∧
        (0 < c.net → s.nv.queue.length < 12 →
          ∃ rec : Record, t.nv.queue = s.nv.queue ++ [.record (.creep h) rec] ∧ rec.kind = .creep ∧
            rec.hose = some h ∧ rec.tank = x ∧ rec.product = code ∧
            rec.net = c.net ∧ rec.gross = some c.gross ∧
            rec.tempAvg = some (if c.gross = 0 then 150 else c.tempSum.tdiv c.gross) ∧
            rec.startTime = c.startTime ∧ rec.endTime = s.clock ∧
            rec.flags.fill.overrange = c.flags.overrange ∧
            rec.flags.fill.tempDefault = c.flags.tempDefault ∧
            rec.flags.fill.limit = c.flags.limit ∧
            ((s.meter h).jobCreep = none → ∀ y, t.drawTotal y = s.drawTotal y))) ∧
      (0 < c.net → s.noCreepJob = false →
        t.nv = s.nv ∧ ∃ w : ClosedCreep, (t.meter h).waitCreep = some w ∧
          ((s.meter h).waitCreep = none → w.net = c.net ∧ w.gross = c.gross ∧ w.tank = x ∧
            w.product = code ∧ w.startTime = c.startTime ∧ w.endTime = s.clock) ∧
          ∀ old, (s.meter h).waitCreep = some old →
            w.net = old.net + c.net ∧ w.gross = old.gross + c.gross ∧
            w.tempSum = old.tempSum + c.tempSum ∧ w.startTime = old.startTime ∧
            w.endTime.toNat = max old.endTime.toNat s.clock.toNat ∧
            w.tank = old.tank ∧ w.product = old.product ∧
            w.flags.limit = (old.flags.limit || c.flags.limit))

/-! ## Fills -/

/-- R20, R23 to R25, R37, R48, R59: the hook. A position held for 100 ms is taken up; a change to
off the hook is a lift, which starts an ARMED fill and, on hose 0, activates the tag interface; a
change to on the hook is a hang, which ends a waiting or running fill with NOZZLE_HUNG and
deactivates it. The first position taken up is neither. That a disarmed fill keeps its flags is the
model's choice (log 60). -/
def Obligations.NozzleHook : Prop :=
  (∀ (h : Hose) (off : Bool) (s : State), ∃ k : Hook,
    exec (.hookSwitchChange h off) s =
      .next { s with hoses := put s.hoses h { s.hoses[h] with hook := k } } ∧
    k.debounced = s.hoses[h].hook.debounced ∧ k.raw = off ∧
    (s.hoses[h].hook.raw = off → k.timer = s.hoses[h].hook.timer) ∧
    (s.hoses[h].hook.raw ≠ off → s.hoses[h].hook.debounced = some off → k.timer = none) ∧
    (s.hoses[h].hook.raw ≠ off → s.hoses[h].hook.debounced ≠ some off → k.timer = some 100)) ∧
  (∀ (h : Hose) (s : State), s.hoses[h].hook.timer.isSome = true →
    s.hoses[h].hook.raw = true →
    (s.hoses[h].hook.debounced ≠ some false → exec (.lift h) s =
      .next { s with hoses := put s.hoses h { s.hoses[h] with
        hook := { raw := true, debounced := some true, timer := none } } }) ∧
    (s.hoses[h].hook.debounced = some false → ∃ u : State,
      exec (.lift h) s = .next (u.settle s) ∧
      u = { s with hoses := u.hoses, tag := u.tag } ∧
      u.hoses[h] = { s.hoses[h] with
        fill := u.fill h, hook := { raw := true, debounced := some true, timer := none } } ∧
      (∀ k : Hose, k ≠ h → u.hoses[k] = s.hoses[k]) ∧
      ((s.fill h).state = .armed → u.fill h = { s.fill h with
        state := .starting, armT := none, startT := some 15000, valveCmd := 0,
        rampTarget := 0 }) ∧
      ((s.fill h).state ≠ .armed → u.fill h = s.fill h) ∧
      (h ≠ 0 ∨ s.tag.act ≠ .off ∨ s.mayActivate = false → u.tag = s.tag) ∧
      (h = 0 → s.tag.act = .off → s.mayActivate = true →
        u.tag.act = .powering ∧ u.tag.coil = true ∧ u.tag.fieldT = some 20 ∧
        u.tag.txFifo = [] ∧ u.tag.rxFifo = [] ∧ u.tag.header = none ∧ u.tag.retry = 0))) ∧
  (∀ (h : Hose) (s : State), s.hoses[h].hook.timer.isSome = true →
    s.hoses[h].hook.raw = false →
    (s.hoses[h].hook.debounced ≠ some true → exec (.hang h) s =
      .next { s with hoses := put s.hoses h { s.hoses[h] with
        hook := { raw := false, debounced := some false, timer := none } } }) ∧
    (s.hoses[h].hook.debounced = some true → ∃ u : State,
      exec (.hang h) s = .next (u.settle s) ∧
      u = { s with hoses := u.hoses, tag := u.tag,
                   nv := { s.nv with reservations := u.nv.reservations } } ∧
      u.hoses[h] = { s.hoses[h] with
        fill := u.fill h, hook := { raw := false, debounced := some false, timer := none } } ∧
      (∀ k : Hose, k ≠ h → u.hoses[k] = s.hoses[k]) ∧
      ((s.fill h).state = .starting →
        FillDisarms (s.fill h) (u.fill h) (.ended .nozzleHung) ∧
        u.nv.reservations = s.nv.reservations - 1) ∧
      ((s.fill h).running = true →
        FillSettles (s.fill h) (u.fill h) .nozzleHung (s.fill h).valveCmd ∧
        u.nv.reservations = s.nv.reservations) ∧
      ((s.fill h).state ≠ .starting → (s.fill h).running = false →
        u.fill h = s.fill h ∧ u.nv = s.nv) ∧
      (h ≠ 0 → u.tag = s.tag) ∧
      (h = 0 → u.tag.act = .off ∧ (s.tag.act ≠ .off → u.tag.coil = false) ∧
        (s.tag.act = .ready → u.tag.lastReport = some .lost) ∧
        (s.tag.act ≠ .ready → u.tag.lastReport = s.tag.lastReport))))

/-- R23, R25, R32, R35, R37: the timers of a fill. The arm timer returns an ARMED fill to IDLE with
ARM_TIMEOUT; the start timer a STARTING one with PUMP_NOT_READY and the PUMP flag while the pump view
is not RUNNING or the home station SILENT, else with TAG_NOT_READY and the TAG flag; the reservation
is released. The no-flow timer ends a fill in FLOWING or SLOWING with NO_FLOW, the hold and the
tag-loss timer one in HELD with HOLD_TIMEOUT, each with a normal close. That a disarmed fill keeps its
flags is the model's choice (log 60). -/
def Obligations.FillTimers : Prop :=
  (∀ (h : Hose) (s : State),
     ((s.fill h).state = .armed → (s.fill h).armT.isSome = true →
       ∃ u : State, exec (.armTimerExpiry h) s = .next (u.settle s) ∧ OneFill s u h ∧
         FillDisarms (s.fill h) (u.fill h) .armTimeout ∧
         u.nv.reservations = s.nv.reservations - 1 ∧ u.flags = s.flags) ∧
     ((s.fill h).state = .starting → (s.fill h).startT.isSome = true →
       ∀ x, (s.fill h).tank = some x →
       ∃ u : State, exec (.startTimerExpiry h) s = .next (u.settle s) ∧ OneFill s u h ∧
         u.nv.reservations = s.nv.reservations - 1 ∧
         (s.views[x].pump.isRunning = false ∨ s.homeSilent x = true →
           FillDisarms (s.fill h) (u.fill h) .pumpNotReady ∧ u = { u with flags :=
             s.flags ||| EventFlag.pump.mask }) ∧
         (s.views[x].pump.isRunning = true → s.homeSilent x = false →
           FillDisarms (s.fill h) (u.fill h) .tagNotReady ∧ u = { u with flags :=
             s.flags ||| EventFlag.tag.mask }))) ∧
  (∀ (h : Hose) (s : State),
     ((s.fill h).state = .flowing ∨ (s.fill h).state = .slowing →
       (s.fill h).noFlowT.isSome = true →
       ∃ u : State, exec (.noFlowTimerExpiry h) s = .next (u.settle s) ∧ OneFill s u h ∧
         FillSettles (s.fill h) (u.fill h) .noFlow (s.fill h).valveCmd ∧ u.nv = s.nv ∧
         u.flags = s.flags) ∧
     ((s.fill h).state = .held → (s.fill h).holdT.isSome = true →
       ∃ u : State, exec (.holdTimerExpiry h) s = .next (u.settle s) ∧ OneFill s u h ∧
         FillSettles (s.fill h) (u.fill h) .holdTimeout (s.fill h).valveCmd ∧ u.nv = s.nv ∧
         u.flags = s.flags) ∧
     ((s.fill h).state = .held → (s.fill h).tagLossT.isSome = true →
       ∃ u : State, exec (.tagLossTimerExpiry h) s = .next (u.settle s) ∧ OneFill s u h ∧
         FillSettles (s.fill h) (u.fill h) .holdTimeout (s.fill h).valveCmd ∧ u.nv = s.nv ∧
         u.flags = s.flags))

/-- R11, R41, R42: either settle timer brings a fill from SETTLING to CLOSING, the limit timer with
the SETTLE_TIMEOUT flag: the end time is the clock, the residues are discarded, and one record job
is queued with what the fill holds; its net stays in the draw total. A fill of kind FILL is credited
to the account record of the visit (R77, R78), its flags and its record take what the crediting
returns; a PROVER fill is credited to no account. -/
def Obligations.SettlingCloses : Prop :=
  ∀ (h : Hose) (s : State) (x : Tank) (c : Instr) (timeout : Bool),
    (s.fill h).state = .settling → (s.fill h).tank = some x →
    (c = .settleQuietTimerExpiry h ∧ (s.fill h).settleQuietT.isSome = true ∧ timeout = false ∨
      c = .settleLimitTimerExpiry h ∧ (s.fill h).settleLimitT.isSome = true ∧ timeout = true) →
    ∃ u : State, exec c s = .next (u.settle s) ∧ StillFrame s u ∧
      (∀ k : Hose, k ≠ h → u.hoses[k] = s.hoses[k]) ∧
      u.hoses[h] = { s.hoses[h] with fill := u.fill h } ∧
      (u.fill h).state = .closing ∧ (u.fill h).endTime = some s.clock ∧
      (u.fill h).grossRes = 0 ∧ (u.fill h).netRes = 0 ∧ (u.fill h).tempSum = 0 ∧
      (u.fill h).net = (s.fill h).net ∧ (u.fill h).gross = (s.fill h).gross ∧
      (u.fill h).endCause = (s.fill h).endCause ∧
      (u.fill h).flags.settleTimeout = ((s.fill h).flags.settleTimeout || timeout) ∧
      u.nv.reservations = s.nv.reservations ∧ (∀ y, u.drawTotal y = s.drawTotal y) ∧
      ((s.fill h).kind ≠ some .fill → u.accounts = s.accounts) ∧
      (∀ p a b k, (s.fill h).kind = some .fill → s.visit.position = some p →
        s.accounts.at? p = some a →
        a.credit (s.fill h).net (s.fill h).lubeSlot s.visit.hours s.clock = (b, k) →
        u.accounts = s.accounts.set p b ∧
        (u.fill h).flags.hoursNotAdvanced = k.notAdvanced ∧
        (u.fill h).flags.hoursGap = k.gap ∧
        (s.nv.queue.length < 12 → ∃ rec : Record,
          u.nv.queue = s.nv.queue ++ [.record (.fill h) rec] ∧ rec.credit = some k.credit)) ∧
      (s.nv.queue.length < 12 →
        ∃ rec : Record, u.nv.queue = s.nv.queue ++ [.record (.fill h) rec] ∧
          rec.kind = (if (s.fill h).kind = some .prover then .prover else .fill) ∧
          rec.seq = (s.fill h).seq.getD 0 ∧ rec.hose = some h ∧ rec.tank = x ∧
          rec.net = (s.fill h).net ∧ rec.gross = some (s.fill h).gross ∧
          rec.preset = (s.fill h).preset ∧ rec.endTime = s.clock ∧
          rec.endCause = (s.fill h).endCause ∧
          rec.tempAvg = some (if (s.fill h).gross = 0 then 150
            else (s.fill h).tempSum.tdiv (s.fill h).gross) ∧
          rec.flags.fill = (u.fill h).flags ∧
          rec.hours = (match (s.fill h).machine with
            | none => none
            | some _ => s.visit.hours))

/-- R28, R29, R32, R41, R118: a ramp tick moves the command of a released valve, or of one whose target is
0, toward the target of the fill's state, and compares it with the feedback: beyond 100 per mille the
2 s timer runs, else it stops and a disagreement present is gone. With the command then at or above the
minimum opening, in FLOWING or SLOWING and the valve released, the no-flow timer runs, from the hose's
no-flow time where it did not run (R32); below it, with the valve not released or in another state it is
stopped. In SETTLING a command that is then 0 starts the settle quiet timer at 2 s where it does not run
(R41); else that timer stands. Only its own hose changes. The model's choices: the comparison is with the
command after the step of this tick (log 61), the no-flow timer asks for the released valve also with a
minimum opening of 0 (log 17), and with the HOSES section invalid step-down and minimum opening are free
values within their ranges (log 58). -/
def Obligations.RampTick : Prop :=
  ∀ (h : Hose) (r : Reading) (s : State) (low down cmd : Nat), s.hoses[h].ramp.isSome = true →
    low = s.minOpening h → down = s.stepDown h → cmd = (s.fill h).valveCmd →
    (s.sectionValid .hoses = true →
      low = (s.hoseCfg h).minimum.toNat ∧ down = (s.hoseCfg h).stepDown.toNat) ∧
    (s.sectionValid .hoses = false → low ≤ 1000 ∧ 1 ≤ down ∧ down ≤ 1000) ∧
    ∃ (t : State) (target : Nat), exec (.rampTick h r) s = .next t ∧ t = { s with hoses := t.hoses } ∧
      (∀ k : Hose, k ≠ h → t.hoses[k] = s.hoses[k]) ∧ t.hoses[h].ramp = some 100 ∧
      t.meter h = s.meter h ∧ t.hoses[h].hook = s.hoses[h].hook ∧
      t.hoses[h].faults = s.hoses[h].faults ∧
      t.fill h = { s.fill h with
        rampTarget := target, valveCmd := (t.fill h).valveCmd, noFlowT := (t.fill h).noFlowT,
        settleQuietT := (t.fill h).settleQuietT } ∧
      target = (match (s.fill h).state with
        | .flowing => max (s.hoseCfg h).full.toNat (max (s.hoseCfg h).slow.toNat low)
        | .slowing => max (s.hoseCfg h).slow.toNat low
        | _ => 0) ∧
      ((s.fill h).released = false → 0 < target → (t.fill h).valveCmd = cmd) ∧
      ((s.fill h).released = true ∨ target = 0 →
        (cmd < low → cmd < target → (t.fill h).valveCmd = low) ∧
        (low ≤ cmd → cmd < target →
          (t.fill h).valveCmd = min (cmd + (s.hoseCfg h).stepUp.toNat) target) ∧
        (target < cmd → 0 < target →
          (t.fill h).valveCmd = max (cmd - down) target) ∧
        (target = 0 → 0 < cmd → (t.fill h).valveCmd =
          if cmd - down < low then 0 else cmd - down) ∧
        (target = cmd → (t.fill h).valveCmd = cmd)) ∧
      ((s.fill h).state = .flowing ∨ (s.fill h).state = .slowing →
        (s.fill h).released = true → low ≤ (t.fill h).valveCmd →
        (t.fill h).noFlowT =
          some ((s.fill h).noFlowT.getD ((s.hoseCfg h).noFlow.toNat * 1000))) ∧
      ((s.fill h).state ≠ .flowing ∧ (s.fill h).state ≠ .slowing ∨
          (s.fill h).released = false ∨ (t.fill h).valveCmd < low →
        (t.fill h).noFlowT = none) ∧
      ((s.fill h).state = .settling → (t.fill h).valveCmd = 0 →
        (t.fill h).settleQuietT = some ((s.fill h).settleQuietT.getD 2000)) ∧
      ((s.fill h).state ≠ .settling ∨ (t.fill h).valveCmd ≠ 0 →
        (t.fill h).settleQuietT = (s.fill h).settleQuietT) ∧
      ((∃ v : Int, r = .value v ∧ v ≤ (t.fill h).valveCmd + 100 ∧
          (t.fill h).valveCmd ≤ v + 100) →
        t.hoses[h].valve = { timer := none, present := false }) ∧
      ((∀ v : Int, r = .value v → (t.fill h).valveCmd + 100 < v ∨ v + 100 < (t.fill h).valveCmd) →
        t.hoses[h].valve.present = s.hoses[h].valve.present ∧
        (s.hoses[h].valve.present = false → t.hoses[h].valve.timer =
          some (s.hoses[h].valve.timer.getD 2000)))

/-- R21, R22, R45: an ARM_HOSE or PROVER_ARM that fails a check is REFUSED with the reason of the first
that fails and changes nothing but the reply; one that passes every check arms the hose, ARMED on the
hook and STARTING off it, with one reservation, and is answered DONE with the preset. PROVER_ARM has its
own preset range, prover mode in place of the visit, LOW_LOW in place of the allowance and no machine
fields. The model's choices: the option bits 1 to 7 are ignored (log 32), an allowance above 9,999,999
mL is the preset as it is (log 76), a nozzle without a debounced position is one not off the hook (log
83), and an item of the fill that R22 does not list takes its reset value (log 59). `u` is the state
before the close of the event. -/
def Obligations.Arming : Prop :=
  (∀ (s : State) (x opts : Byte) (preset : U32), s.LineFree →
     (4 ≤ x.toNat → exec (.armHose x opts preset) s = .next (s.replied 0x09 6 .refused [12])) ∧
     ∀ h : Hose, x.toNat = h.val →
       (9999999 < preset.toNat →
         exec (.armHose x opts preset) s = .next (s.replied 0x09 6 .refused [12])) ∧
       (preset.toNat ≤ 9999999 → s.cfg.fault = true →
         exec (.armHose x opts preset) s = .next (s.replied 0x09 6 .refused [10])) ∧
       (preset.toNat ≤ 9999999 → s.cfg.fault = false → s.shutdownStands = true →
         exec (.armHose x opts preset) s = .next (s.replied 0x09 6 .refused [2])) ∧
       (preset.toNat ≤ 9999999 → s.cfg.fault = false → s.shutdownStands = false →
         s.hoseFaulted h = true →
         exec (.armHose x opts preset) s = .next (s.replied 0x09 6 .refused [11])) ∧
       (preset.toNat ≤ 9999999 → s.cfg.fault = false → s.shutdownStands = false →
         s.hoseFaulted h = false →
         (s.laneClosed = true ∨ s.closePending = true ∨ s.visit.state ≠ .opened ∨
           (s.fill h).state ≠ .idle ∨ s.hoses[h].override.isSome = true ∨
           (h = 0 ∧ s.visit.barred = true) ∨
           (opts.getLsbD 0 = true ∧ s.visit.origin = some .manual ∧ s.visit.hours = none)) →
         exec (.armHose x opts preset) s = .next (s.replied 0x09 6 .refused [1])) ∧
       (preset.toNat ≤ 9999999 → s.cfg.fault = false → s.shutdownStands = false →
         s.hoseFaulted h = false → s.laneClosed = false → s.closePending = false →
         s.visit.state = .opened → (s.fill h).state = .idle → s.hoses[h].override = none →
         (h = 0 → s.visit.barred = false) →
         (opts.getLsbD 0 = true → s.visit.origin = some .manual → s.visit.hours ≠ none) →
         (s.hoseSilent h = true →
           exec (.armHose x opts preset) s = .next (s.replied 0x09 6 .refused [5])) ∧
         (s.hoseSilent h = false → 1024 ≤ s.logUse →
           exec (.armHose x opts preset) s = .next (s.replied 0x09 6 .refused [3])) ∧
         (s.hoseSilent h = false → s.logUse < 1024 →
           s.allowance h (opts.getLsbD 0) = none →
           exec (.armHose x opts preset) s = .next (s.replied 0x09 6 .refused [4])) ∧
         (s.hoseSilent h = false → s.logUse < 1024 →
           ∀ a, s.allowance h (opts.getLsbD 0) = some a →
           ∃ (u : State) (p : Nat), exec (.armHose x opts preset) s =
               .next ((u.settle (s.atRequest 6)).formReply 0x09 .done (beBytes 4 p)) ∧
             p = (if preset.toNat = 0 then a else min a preset.toNat) ∧
             u = { s.atRequest 6 with
               hoses := u.hoses, nv := { s.nv with reservations := s.nv.reservations + 1 } } ∧
             (∀ k : Hose, k ≠ h → u.hoses[k] = s.hoses[k]) ∧
             u.hoses[h] = { s.hoses[h] with fill := u.fill h } ∧
             (u.fill h).kind = some .fill ∧ (u.fill h).preset = some p ∧
             (u.fill h).tank = tankOf (s.hoseCfg h).tank ∧
             (u.fill h).product = some (s.hoseCfg h).product ∧
             (u.fill h).machine = some ({
               machineId := s.visit.machineId.getD 0, cls := s.visit.cls,
               hours := s.visit.hours, manual := decide (s.visit.origin = some .manual) } :
                 MachineFields) ∧
             (u.fill h).gross = 0 ∧ (u.fill h).net = 0 ∧ (u.fill h).seq = none ∧
             (u.fill h).endCause = none ∧ (u.fill h).holds.isEmpty = true ∧
             (u.fill h).flags.override = opts.getLsbD 0 ∧
             (u.fill h).flags.manual = decide (s.visit.origin = some .manual) ∧
             (s.hoses[h].hook.debounced ≠ some true →
               (u.fill h).state = .armed ∧ (u.fill h).armT = some 120000 ∧
               (u.fill h).valveCmd = (s.fill h).valveCmd) ∧
             (s.hoses[h].hook.debounced = some true →
               (u.fill h).state = .starting ∧ (u.fill h).startT = some 15000 ∧
               (u.fill h).armT = none ∧ (u.fill h).valveCmd = 0 ∧ (u.fill h).rampTarget = 0)))) ∧
  (∀ (s : State) (x : Byte) (preset : U32), s.LineFree → 4 ≤ x.toNat →
     exec (.proverArm x preset) s = .next (s.replied 0x29 5 .refused [12])) ∧
  (∀ (s : State) (x : Byte) (preset : U32) (h : Hose), s.LineFree → x.toNat = h.val →
     ((preset.toNat = 0 ∨ 9999999 < preset.toNat) →
       exec (.proverArm x preset) s = .next (s.replied 0x29 5 .refused [12])) ∧
     (1 ≤ preset.toNat → preset.toNat ≤ 9999999 → s.cfg.fault = true →
       exec (.proverArm x preset) s = .next (s.replied 0x29 5 .refused [10])) ∧
     (1 ≤ preset.toNat → preset.toNat ≤ 9999999 → s.cfg.fault = false →
       s.shutdownStands = true →
       exec (.proverArm x preset) s = .next (s.replied 0x29 5 .refused [2])) ∧
     (1 ≤ preset.toNat → preset.toNat ≤ 9999999 → s.cfg.fault = false →
       s.shutdownStands = false → s.hoseFaulted h = true →
       exec (.proverArm x preset) s = .next (s.replied 0x29 5 .refused [11])) ∧
     (1 ≤ preset.toNat → preset.toNat ≤ 9999999 → s.cfg.fault = false →
       s.shutdownStands = false → s.hoseFaulted h = false →
       (s.laneClosed = true ∨ s.closePending = true ∨ (s.fill h).state ≠ .idle ∨
         s.hoses[h].override = none →
         exec (.proverArm x preset) s = .next (s.replied 0x29 5 .refused [1])) ∧
       (s.laneClosed = false → s.closePending = false → (s.fill h).state = .idle →
         s.hoses[h].override.isSome = true →
         (s.hoseSilent h = true →
           exec (.proverArm x preset) s = .next (s.replied 0x29 5 .refused [5])) ∧
         (s.hoseSilent h = false → 1024 ≤ s.logUse →
           exec (.proverArm x preset) s = .next (s.replied 0x29 5 .refused [3])) ∧
         (s.hoseSilent h = false → s.logUse < 1024 →
         ∀ y, tankOf (s.hoseCfg h).tank = some y →
         (s.views[y].state = .lowLow →
           exec (.proverArm x preset) s = .next (s.replied 0x29 5 .refused [4])) ∧
         (s.views[y].state ≠ .lowLow →
           ∃ u : State, exec (.proverArm x preset) s =
               .next ((u.settle (s.atRequest 5)).formReply 0x29 .done
                 (beBytes 4 preset.toNat)) ∧
             u = { s.atRequest 5 with
               hoses := u.hoses, nv := { s.nv with reservations := s.nv.reservations + 1 } } ∧
             (∀ k : Hose, k ≠ h → u.hoses[k] = s.hoses[k]) ∧
             u.hoses[h] = { s.hoses[h] with fill := u.fill h } ∧
             (u.fill h).kind = some .prover ∧ (u.fill h).preset = some preset.toNat ∧
             (u.fill h).machine = none ∧ (u.fill h).tank = some y ∧
             (u.fill h).flags = FillFlags.clear ∧ (u.fill h).net = 0 ∧ (u.fill h).gross = 0 ∧
             (s.hoses[h].hook.debounced ≠ some true →
               (u.fill h).state = .armed ∧ (u.fill h).armT = some 120000) ∧
             (s.hoses[h].hook.debounced = some true →
               (u.fill h).state = .starting ∧ (u.fill h).startT = some 15000))))))

/-- R36: PAUSE_HOSE, RESUME_HOSE and STOP_HOSE: a hose outside 0..3 is REFUSED with RANGE, a fill in
another state than the table's with STATE; an accepted request has its effect (R23, R25, R33, R34, R37,
R41) and is answered DONE; a fill resumed by its last hold cause is in FLOWING or SLOWING with its
volumes, sequence and mark (`HoldLeft`). The model's choices: what a disarmed fill keeps in IDLE
(volumes, sequence, end cause, flags: log 60), and that the no-flow timer of a resumed fill asks for the
released valve also with a minimum opening of 0 (log 17). -/
def Obligations.PauseResumeStop : Prop :=
  ∀ (s : State) (x : Byte), s.LineFree →
    (4 ≤ x.toNat → exec (.pauseHose x) s = .next (s.replied 0x0B 1 .refused [12]) ∧
      exec (.resumeHose x) s = .next (s.replied 0x0C 1 .refused [12]) ∧
      exec (.stopHose x) s = .next (s.replied 0x0A 1 .refused [12])) ∧
    ∀ h : Hose, x.toNat = h.val →
      ((s.fill h).running = false →
        exec (.pauseHose x) s = .next (s.replied 0x0B 1 .refused [1]) ∧
        exec (.resumeHose x) s = .next (s.replied 0x0C 1 .refused [1])) ∧
      ((s.fill h).holds.operator = false →
        exec (.resumeHose x) s = .next (s.replied 0x0C 1 .refused [1])) ∧
      ((s.fill h).state = .idle ∨ (s.fill h).state = .settling ∨ (s.fill h).state = .closing →
        exec (.stopHose x) s = .next (s.replied 0x0A 1 .refused [1])) ∧
      ((s.fill h).running = true →
        ∃ t : State, exec (.pauseHose x) s = .next (t.formReply 0x0B .done []) ∧
          OneFill (s.atRequest 1) t h ∧ t.nv = s.nv ∧ t.flags = s.flags ∧
          (t.fill h).state = .held ∧ (t.fill h).holds = (s.fill h).holds.add .operator ∧
          ((s.fill h).state = .held → t.fill h = { s.fill h with holds := (t.fill h).holds }) ∧
          ((s.fill h).state ≠ .held → t.fill h = { s.fill h with
            state := .held, holds := (t.fill h).holds, rampTarget := 0, noFlowT := none,
            holdT := some 180000 })) ∧
      ((s.fill h).state = .held → (s.fill h).holds.operator = true →
        ∃ t : State, exec (.resumeHose x) s = .next (t.formReply 0x0C .done []) ∧
          OneFill (s.atRequest 1) t h ∧ t.nv = s.nv ∧ t.flags = s.flags ∧
          HoldLeft s h (t.fill h) { (s.fill h).holds with operator := false }
            (s.fill h).tagLossT) ∧
      ((s.fill h).waits = true →
        ∃ u : State, exec (.stopHose x) s =
            .next ((u.settle (s.atRequest 1)).formReply 0x0A .done []) ∧
          OneFill (s.atRequest 1) u h ∧ u.nv.reservations = s.nv.reservations - 1 ∧
          FillDisarms (s.fill h) (u.fill h) (.ended .operatorStop)) ∧
      ((s.fill h).running = true →
        ∃ u : State, exec (.stopHose x) s =
            .next ((u.settle (s.atRequest 1)).formReply 0x0A .done []) ∧
          OneFill (s.atRequest 1) u h ∧ u.nv = s.nv ∧
          FillSettles (s.fill h) (u.fill h) .operatorStop (s.fill h).valveCmd)

/-! ## Tag interface -/

/-- R49, R50, R52: the field-stable time ends in RESETTING with a tag, else in WAITING NO_TAG with
the coil off and 250 ms to the retry, which powers the coil again while hose 0 is off the hook and
the conditions of R48 hold; a send that ends opens the 50 ms answer window; a byte that arrives is
kept with its parity, or, with 40 held, marks the answer overrun, and the answer ends 5 ms later.
Nothing but the tag interface changes. That a nozzle without a debounced position is not off the hook
is the model's choice (log 83). -/
def Obligations.TagTimersAndBytes : Prop :=
  ∀ s : State,
    (s.tag.act = .powering → s.tag.fieldT.isSome = true →
      (∃ t : Tag, exec (.fieldStableTimeExpiry true) s = .next { s with tag := t } ∧
        t.act = .resetting ∧ t.sending = true ∧ t.coil = s.tag.coil ∧ t.rxFifo = [] ∧
        t.fieldT = none ∧ t.block = s.tag.block ∧ t.retry = s.tag.retry) ∧
      ∃ t : Tag, exec (.fieldStableTimeExpiry false) s = .next { s with tag := t } ∧
        t.act = .waitingNoTag ∧ t.coil = false ∧ t.retryT = some 250 ∧ t.fieldT = none ∧
        t.block = s.tag.block ∧ t.lastReport = s.tag.lastReport) ∧
    (s.tag.act = .waitingNoTag → s.tag.retryT.isSome = true →
      ∃ t : Tag, exec .tagRetryTimerExpiry s = .next { s with tag := t } ∧ t.block = s.tag.block ∧
        (s.mayActivate = true → s.hoses[(0 : Hose)].hook.debounced = some true →
          t.act = .powering ∧ t.coil = true ∧ t.fieldT = some 20 ∧ t.retry = 0 ∧
          t.header = none ∧ t.txFifo = [] ∧ t.rxFifo = []) ∧
        ((s.mayActivate = false ∨ s.hoses[(0 : Hose)].hook.debounced ≠ some true) →
          t = { s.tag with retryT := none })) ∧
    (s.tag.sending = true →
      ∃ t : Tag, exec .tagSendComplete s = .next { s with tag := t } ∧ t.sending = false ∧
        t.windowT = some 50 ∧ t.txFifo = [] ∧ t.act = s.tag.act ∧ t.rxFifo = s.tag.rxFifo ∧
        ∀ a b, s.tag.txFifo = [a, b] → t.airOut = [a, b] ++ beBytes 2 (crc16 [a, b]).toNat) ∧
    ∀ (b : Byte) (p : Bool), (s.tag.act = .resetting ∨ s.tag.act = .exchanging) →
      (s.tag.windowT.isSome = true ∨ s.tag.gapT.isSome = true) →
      ∃ t : Tag, exec (.tagByteReceived b p) s = .next { s with tag := t } ∧ t.act = s.tag.act ∧
        t.windowT = none ∧ t.gapT = some 5 ∧
        (s.tag.rxFifo.length < 40 → t.overrun = s.tag.overrun ∧
          ∃ even : Bool, t.rxFifo = s.tag.rxFifo ++ [(b, even)] ∧
            (even = true ↔
              (((List.range 8).filter fun i => b.getLsbD i).length + (if p then 1 else 0)) % 2 =
                0)) ∧
        (40 ≤ s.tag.rxFifo.length → t.overrun = true ∧ t.rxFifo = s.tag.rxFifo)

/-- R50 to R56, R58, R63, R64: how an answer of the tag is judged. A failed exchange (TIMEOUT, OVERRUN,
PARITY, LENGTH, HEADER_CRC, BLOCK_CRC, SERIAL) is a retry below three, with its reason; at three it
ends the attempt: the TAG flag, the FAULT report, WAITING FAULTED with the coil energised. A content
fault ends it at once. A header that passes takes the interface to EXCHANGING with the READ BLOCK
command; a block that passes is held and the interface READY, and its report is made: CONFIRMED or
CHANGED for a visit with a tag identity, an identification without a visit, and the adoption of a
manual visit of the same machine. At CONFIRMED, TAG_LOST leaves the hold cause set of the fill that the
tag governs: out of HELD it resumes when the set is then empty and stays HELD else, with the tag-loss timer
stopped (R33, R34); hours of the block lower than the visit's are not adopted and counted (R58). At CHANGED
that fill ends by emergency close, one in STARTING is in IDLE (R25), and one in SETTLING closes by
emergency with its end cause (R40). The block's class is that of byte 4, its capacities those of bytes 5
to 12, a fuel capacity of 0 replaced by the default of the class; the visit takes both, a lube capacity
of 0 replaced by the default of its slot, and a record held for the machine is marked in use (R68). The
defaults are those of ACCOUNT RULES. The model's choices: the default of a block with fuel capacity 0 is
a free value while the ACCOUNT RULES section is invalid (log 70), a disarmed fill keeps its flags (log 60),
and the no-flow timer of a resumed fill asks for the released valve also with a minimum opening of 0
(log 17). -/
def Obligations.TagAnswers : Prop :=
  (∀ s : State, s.sectionValid .rules = true →
    (∀ (c : MachineClass) (k : Fin 3),
      (c = .haul ∧ k = 0 ∨ c = .support ∧ k = 1 ∨ c = .priority ∧ k = 2) →
      s.fuelDefault c = s.cfg.data.rules.fuelDefault[k].toNat) ∧
    ∀ n : LubeSlot, s.lubeDefault n = s.cfg.data.rules.lubeDefault[n].toNat) ∧
  ∀ s : State, (s.tag.act = .resetting ∨ s.tag.act = .exchanging) →
    (∀ (c : Instr) (r : TagReason) (l : List Byte), l = s.tag.rxFifo.map Prod.fst →
      (c = .tagAnswerTimeout ∧ s.tag.windowT.isSome = true ∧ r = .timeout ∨
        c = .tagAnswerEnd ∧ s.tag.gapT.isSome = true ∧ s.tag.overrun = false ∧
          (∃ b ∈ s.tag.rxFifo, b.2 = false) ∧ r = .parity ∨
        c = .tagAnswerEnd ∧ s.tag.gapT.isSome = true ∧ s.tag.overrun = false ∧
          (∀ b ∈ s.tag.rxFifo, b.2 = true) ∧ r = .length ∧
          s.tag.rxFifo.length ≠ (if s.tag.act = .resetting then 8 else 34) ∨
        c = .tagAnswerEnd ∧ s.tag.gapT.isSome = true ∧ s.tag.overrun = true ∧ r = .overrun ∨
        c = .tagAnswerEnd ∧ s.tag.gapT.isSome = true ∧ s.tag.overrun = false ∧
          (∀ b ∈ s.tag.rxFifo, b.2 = true) ∧ s.tag.act = .resetting ∧ l.length = 8 ∧
          crc16 (l.take 6) ≠ u16At l 6 ∧ r = .headerCrc ∨
        c = .tagAnswerEnd ∧ s.tag.gapT.isSome = true ∧ s.tag.overrun = false ∧
          (∀ b ∈ s.tag.rxFifo, b.2 = true) ∧ s.tag.act = .exchanging ∧ l.length = 34 ∧
          crc16 (l.take 32) ≠ u16At l 32 ∧ r = .blockCrc ∨
        c = .tagAnswerEnd ∧ s.tag.gapT.isSome = true ∧ s.tag.overrun = false ∧
          (∀ b ∈ s.tag.rxFifo, b.2 = true) ∧ s.tag.act = .exchanging ∧ l.length = 34 ∧
          crc16 (l.take 32) = u16At l 32 ∧
          (∀ hd : TagHeader, s.tag.header = some hd → hd.serial ≠ u32At l 18) ∧ r = .serial) →
      ∃ u : State, exec c s = .next (u.settle s) ∧
        u = { s with tag := u.tag, flags := u.flags } ∧ u.tag.lastFault = some r ∧
        u.tag.overruns =
          (if r = .overrun then Nat.min (s.tag.overruns + 1) 65535 else s.tag.overruns) ∧
        u.tag.block = s.tag.block ∧ u.tag.rxFifo = [] ∧
        (s.tag.retry < 3 → u.flags = s.flags ∧ u.tag.act = .resetting ∧
          u.tag.sending = true ∧ u.tag.retry = s.tag.retry + 1 ∧
          u.tag.retries = Nat.min (s.tag.retries + 1) 65535 ∧ u.tag.coil = s.tag.coil) ∧
        (3 ≤ s.tag.retry → u.flags = s.flags ||| EventFlag.tag.mask ∧
          u.tag.act = .waitingFaulted ∧ u.tag.coil = true ∧ u.tag.lastReport = some .fault ∧
          u.tag.faults = Nat.min (s.tag.faults + 1) 65535 ∧ u.tag.sampleT = some 100)) ∧
    (∀ l : List Byte, s.tag.gapT.isSome = true → s.tag.overrun = false →
      s.tag.rxFifo = l.map (fun b => (b, true)) →
      (s.tag.act = .resetting → l.length = 8 → crc16 (l.take 6) = u16At l 6 →
        u8At l 4 = 1 → (u8At l 5).toNat ≤ 15 →
        ∃ u : State, exec .tagAnswerEnd s = .next (u.settle s) ∧ u = { s with tag := u.tag } ∧
          u.tag.act = .exchanging ∧ u.tag.txFifo = [0x30, u8At l 5] ∧
          u.tag.lastMark = some 1 ∧ u.tag.sending = true ∧ u.tag.rxFifo = [] ∧
          u.tag.header = some { serial := u32At l 0, format := 1, blockNumber := u8At l 5 }) ∧
      (s.tag.act = .resetting → l.length = 8 → crc16 (l.take 6) = u16At l 6 →
        (u8At l 4 ≠ 1 ∨ 15 < (u8At l 5).toNat) →
        ∃ u : State, exec .tagAnswerEnd s = .next (u.settle s) ∧
          u = { s with tag := u.tag, flags := s.flags ||| EventFlag.tag.mask } ∧
          u.tag.act = .waitingFaulted ∧ u.tag.lastFault = some .content ∧
          u.tag.lastReport = some .fault) ∧
      (s.tag.act = .exchanging → l.length = 34 → crc16 (l.take 32) = u16At l 32 →
        (∃ hd : TagHeader, s.tag.header = some hd ∧ hd.serial = u32At l 18) →
        (u8At l 22 ≠ 1 ∨ (u8At l 4).toNat = 0 ∨ 3 < (u8At l 4).toNat ∨ u32At l 0 = 0 ∨
          1 < (u8At l 17).toNat) →
        ∃ u : State, exec .tagAnswerEnd s = .next (u.settle s) ∧
          u = { s with tag := u.tag, flags := s.flags ||| EventFlag.tag.mask } ∧
          u.tag.act = .waitingFaulted ∧ u.tag.lastFault = some .content ∧
          u.tag.lastReport = some .fault ∧ u.tag.block = s.tag.block) ∧
      (s.tag.act = .exchanging → l.length = 34 → crc16 (l.take 32) = u16At l 32 →
        (∃ hd : TagHeader, s.tag.header = some hd ∧ hd.serial = u32At l 18) →
        u8At l 22 = 1 → (1 ≤ (u8At l 4).toNat ∧ (u8At l 4).toNat ≤ 3) → u32At l 0 ≠ 0 →
        (u8At l 17 = 0 ∨ u8At l 17 = 1) →
        ∃ (u : State) (b : TagBlock), exec .tagAnswerEnd s = .next (u.settle s) ∧ u.tag.act = .ready ∧
          u.tag.block = some b ∧ b.machineId = u32At l 0 ∧ b.serial = u32At l 18 ∧
          b.hours = (if u8At l 17 = 1 ∧ (u32At l 13).toNat ≤ 99999999
            then some (u32At l 13).toNat else none) ∧
          b.fuelCap = (if (u16At l 5).toNat = 0 then s.fuelDefault b.cls
            else (u16At l 5).toNat) ∧
          b.hoursValid = u8At l 17 ∧ b.format = 1 ∧
          (u8At l 4).toNat =
            (match b.cls with | .haul => 1 | .support => 2 | .priority => 3) ∧
          b.lubeCap = #v[(u16At l 7).toNat, (u16At l 9).toNat, (u16At l 11).toNat] ∧
          u.tag.reads = Nat.min (s.tag.reads + 1) 65535 ∧ u.tag.retry = 0 ∧
          u.tag.sampleT = some 100 ∧ u.store = s.store ∧
          (s.visit.state ≠ .none → s.visit.tagId.isSome = true →
            s.visit.machineId = some b.machineId →
            u.tag.lastReport = some .confirmed ∧ u.visit = { s.visit with hours :=
              (match b.hours, s.visit.hours with
               | none, x => x
               | some y, none => some y
               | some y, some x => if x ≤ y then some y else some x) } ∧
            u = { s with tag := u.tag, visit := u.visit, hoses := u.hoses } ∧
            (∀ x y, s.visit.hours = some x → b.hours = some y → y < x →
              u.tag.hoursNotAdopted = Nat.min (s.tag.hoursNotAdopted + 1) 65535) ∧
            ((∀ x y, s.visit.hours = some x → b.hours = some y → x ≤ y) →
              u.tag.hoursNotAdopted = s.tag.hoursNotAdopted) ∧
            u.hoses[(0 : Hose)] = { s.hoses[(0 : Hose)] with fill := u.fill 0 } ∧
            (∀ k : Hose, k ≠ 0 → u.hoses[k] = s.hoses[k]) ∧
            (s.tagGoverns 0 = true →
              ((s.fill 0).state = .held →
                HoldLeft s 0 (u.fill 0) { (s.fill 0).holds with tagLost := false } none) ∧
              ((s.fill 0).state = .starting → u.fill 0 = { s.fill 0 with
                holds := { (s.fill 0).holds with tagLost := false } })) ∧
            (s.tagGoverns 0 = false ∨ (s.fill 0).state ≠ .held ∧ (s.fill 0).state ≠ .starting →
              u.fill 0 = s.fill 0)) ∧
          (s.visit.state ≠ .none → s.visit.tagId.isSome = true →
            s.visit.machineId ≠ some b.machineId →
            u.tag.lastReport = some .changed ∧ u.visit = { s.visit with barred := true } ∧
            u = { s with
              tag := u.tag, visit := u.visit, hoses := u.hoses,
              flags := s.flags ||| EventFlag.tag.mask,
              nv := { s.nv with reservations := u.nv.reservations } } ∧
            u.hoses[(0 : Hose)] = { s.hoses[(0 : Hose)] with fill := u.fill 0 } ∧
            (∀ k : Hose, k ≠ 0 → u.hoses[k] = s.hoses[k]) ∧
            (s.tagGoverns 0 = true →
              ((s.fill 0).state = .starting →
                FillDisarms (s.fill 0) (u.fill 0) (.ended .tagChanged) ∧
                u.nv.reservations = s.nv.reservations - 1) ∧
              ((s.fill 0).running = true → FillSettles (s.fill 0) (u.fill 0) .tagChanged 0) ∧
              ((s.fill 0).state = .settling → u.fill 0 = { s.fill 0 with
                valveCmd := 0, rampTarget := 0,
                settleQuietT := some ((s.fill 0).settleQuietT.getD 2000) })) ∧
            (s.tagGoverns 0 = false ∨ (s.fill 0).state = .idle ∨ (s.fill 0).state = .armed ∨
                (s.fill 0).state = .closing →
              u.fill 0 = s.fill 0) ∧
            (s.tagGoverns 0 = false ∨ (s.fill 0).state ≠ .starting → u.nv = s.nv)) ∧
          (s.visit.state = .none → s.cfg.fault = false → s.link.dupStation = false →
            s.shownByPeer b.machineId = false →
            u.tag.lastReport = some .confirmed ∧ u.visit.state = .querying ∧
            u.visit.origin = some .tag ∧ u.visit.machineId = some b.machineId ∧
            u.visit.queryT = some 250 ∧ u.visit.hours = b.hours ∧
            u.visit.fuelCap = some b.fuelCap ∧ u.visit.cls = some b.cls ∧
            u.visit.tagId = some { serial := b.serial, machineId := b.machineId } ∧
            (∃ lube : Vector Nat 3, u.visit.lubeCap = some lube ∧ ∀ n : LubeSlot,
              lube[n] = if b.lubeCap[n] = 0 then s.lubeDefault n else b.lubeCap[n]) ∧
            (s.accounts.find b.machineId = none →
              u.accounts = s.accounts ∧ u.visit.position = none) ∧
            ∀ p a, s.accounts.find b.machineId = some (p, a) → u.visit.position = some p ∧
              u.accounts = s.accounts.set p { a with inUse := true }) ∧
          (s.visit.state = .none →
            (s.cfg.fault = true ∨ s.link.dupStation = true ∨
              s.shownByPeer b.machineId = true) →
            u.tag.lastReport = some .identified ∧ u.visit.state = .none ∧
            u.flagSet .visit = true) ∧
          ((s.visit.state = .querying ∨ s.visit.state = .opened) → s.visit.tagId = none →
            (s.visit.machineId ≠ some b.machineId →
              u.tag.lastReport = some .identified ∧ u.visit = { s.visit with barred := true } ∧
              u.flagSet .visit = true) ∧
            (s.visit.machineId = some b.machineId →
              u.tag.lastReport = some .confirmed ∧ ∃ (hours : Option Nat) (lube : Vector Nat 3),
              u.visit = { s.visit with
                origin := some .tag,
                tagId := some { serial := b.serial, machineId := b.machineId },
                cls := some b.cls, fuelCap := some b.fuelCap, lubeCap := some lube,
                hours := hours } ∧
              hours = (match b.hours, s.visit.hours with
               | none, x => x
               | some y, none => some y
               | some y, some x => if x ≤ y then some y else some x) ∧
              (∀ n : LubeSlot,
                lube[n] = if b.lubeCap[n] = 0 then s.lubeDefault n else b.lubeCap[n]) ∧
              ∀ p a, s.visit.position = some p → s.accounts.at? p = some a →
                u.accounts = s.accounts.set p
                  { a with cls := b.cls, fuelCap := b.fuelCap, lubeCap := lube }))))

/-- R54, R57, R59, R60: samples of the coil load. In READY the third absence in a row is a loss: LOST
is reported, and a running FILL that the tag governs is held with TAG_LOST; in LOST two presences in
a row power the interface again. RESET_TAG_INTERFACE deactivates, which out of READY reports LOST with
the same hold, powers again with hose 0 off the hook, and is answered DONE. That before its first debounced position
hose 0 is not off the hook is the model's choice (log 83). -/
def Obligations.TagPresenceAndReset : Prop :=
  (∀ (s : State) (p : Bool), s.tag.sampleT.isSome = true →
    (s.tag.act = .ready → ∃ u : State, exec (.tagPresenceSample p) s = .next (u.settle s) ∧
      u.tag.block = s.tag.block ∧ u.tag.coil = s.tag.coil ∧ u.store = s.store ∧
      u.visit = s.visit ∧
      (p = true → u = { s with tag := u.tag } ∧ u.tag.act = .ready ∧ u.tag.absentRun = 0) ∧
      (p = false → s.tag.absentRun < 2 → u = { s with tag := u.tag } ∧ u.tag.act = .ready ∧
        u.tag.absentRun = s.tag.absentRun + 1) ∧
      (p = false → 2 ≤ s.tag.absentRun → u.tag.act = .lost ∧ u.tag.lastReport = some .lost ∧
        (∀ k : Hose, k ≠ 0 → u.hoses[k] = s.hoses[k]) ∧
        (s.tagGoverns 0 = false → u.hoses = s.hoses) ∧
        (s.tagGoverns 0 = true → (s.fill 0).running = true →
          (u.fill 0).state = .held ∧ (u.fill 0).holds.tagLost = true ∧
          ((s.fill 0).holds.tagLost = false → (u.fill 0).tagLossT = some 20000)))) ∧
    (s.tag.act = .lost → ∃ t : Tag, exec (.tagPresenceSample p) s = .next { s with tag := t } ∧
      (p = false → t.act = .lost ∧ t.presentRun = 0) ∧
      (p = true → s.tag.presentRun = 0 → t.act = .lost ∧ t.presentRun = 1) ∧
      (p = true → 1 ≤ s.tag.presentRun → t.act = .powering ∧ t.coil = true ∧ t.retry = 0 ∧
        t.fieldT = some 20)) ∧
    (s.tag.act = .waitingFaulted →
      ∃ t : Tag, exec (.tagPresenceSample p) s = .next { s with tag := t } ∧
        t.faults = s.tag.faults ∧
        (s.tag.absenceSeen = false → t.act = .waitingFaulted) ∧
        (s.tag.absenceSeen = true → p = true → 1 ≤ s.tag.presentRun → t.act = .powering))) ∧
  ∀ s : State, s.LineFree →
    ∃ u : State, exec .resetTagInterface s =
        .next ((u.settle (s.atRequest 0)).formReply 0x1A .done []) ∧
      u = { s.atRequest 0 with tag := u.tag, hoses := u.hoses } ∧
      u.tag.block = s.tag.block ∧ u.tag.reads = s.tag.reads ∧
      (s.tag.act = .ready → u.tag.lastReport = some .lost ∧
        (∀ k : Hose, k ≠ 0 → u.hoses[k] = s.hoses[k]) ∧
        (s.tagGoverns 0 = false → u.hoses = s.hoses) ∧
        (s.tagGoverns 0 = true → (s.fill 0).running = true →
          (u.fill 0).state = .held ∧ (u.fill 0).holds.tagLost = true ∧
          ((s.fill 0).holds.tagLost = false → (u.fill 0).tagLossT = some 20000))) ∧
      (s.tag.act ≠ .ready → u.tag.lastReport = s.tag.lastReport ∧ u.hoses = s.hoses) ∧
      (s.mayActivate = true → s.hoses[(0 : Hose)].hook.debounced = some true →
        u.tag.act = .powering ∧ u.tag.coil = true) ∧
      (s.mayActivate = false ∨ s.hoses[(0 : Hose)].hook.debounced ≠ some true →
        u.tag.act = .off)

/-! ## Visits and accounts -/

/-- R66, R68, R71: OPEN_MANUAL_VISIT refused with the reason of the first check that fails, the
VISIT flag set; accepted, the visit is QUERYING with its query offered and 250 ms to run, and a record
held for its machine is marked in use. When they have run it is OPEN, its machine's record held and in
use. A record held takes class and capacities from a tag visit and gives them to a manual one; one
created takes those of the visit, in a manual visit SUPPORT with the defaults of ACCOUNT RULES, which
the visit takes too. Those defaults are free values while that section is invalid, the model's choice
(log 70). -/
def Obligations.VisitOpens : Prop :=
  (∀ (s : State) (m hours : U32), s.LineFree →
    (∀ (r : Reason), firstFailure
        [(m != 0 && (hours == 0xFFFFFFFF || decide (hours.toNat ≤ 99999999)), .range),
         (!s.cfg.fault, .configFault), (!s.link.dupStation, .shutdown),
         (!s.laneClosed && !s.closePending && s.visit.state == .none, .state),
         (!s.shownByPeer m, .tagInUse)] = some r →
      ∃ o : Option VisitOutcome, exec (.openManualVisit m hours) s = .next
          ({ s with visit := { s.visit with lastOutcome := o },
                    flags := s.flags ||| EventFlag.visit.mask }.replied 0x06 8 .refused
            [r.code]) ∧
        (r = .tagInUse → o = some .tagInUse) ∧ (r = .configFault → o = some .configFault) ∧
        (r = .shutdown → o = some .duplicateStation) ∧
        (r = .range ∨ r = .state → o = s.visit.lastOutcome)) ∧
    (m ≠ 0 → (hours = 0xFFFFFFFF ∨ hours.toNat ≤ 99999999) → s.cfg.fault = false →
      s.link.dupStation = false → s.laneClosed = false → s.closePending = false →
      s.visit.state = .none → s.shownByPeer m = false →
      ∃ u : State, exec (.openManualVisit m hours) s =
          .next ((u.settle (s.atRequest 8)).formReply 0x06 .done []) ∧
        u = { s.atRequest 8 with visit := u.visit, accounts := u.accounts, link := u.link } ∧
        u.visit.state = .querying ∧ u.visit.origin = some .manual ∧
        u.visit.machineId = some m ∧ u.visit.tagId = none ∧ u.visit.cls = none ∧
        u.visit.queryT = some 250 ∧ u.visit.barred = false ∧
        u.visit.hours = (if hours = 0xFFFFFFFF then none else some hours.toNat) ∧
        u.link = s.link.offer (.query m) ∧
        u.visit.position = (s.accounts.find m).map Prod.fst ∧
        u.visit.fuelCap = none ∧ u.visit.lubeCap = none ∧
        (∀ p a, s.accounts.find m = some (p, a) →
          u.accounts = s.accounts.set p { a with inUse := true }) ∧
        ((∀ e ∈ s.accounts.records, e.2.machineId ≠ m) → u.accounts = s.accounts))) ∧
  ∀ (s : State) (m : U32), s.visit.state = .querying → s.visit.queryT.isSome = true →
    s.visit.machineId = some m →
    ∃ u : State, exec .queryTimerExpiry s = .next (u.settle s) ∧
      u = { s with visit := u.visit, accounts := u.accounts, flags := u.flags } ∧
      u.visit.state = .opened ∧ u.visit.queryT = none ∧ u.visit.idleT = some 120000 ∧
      u.visit.machineId = some m ∧ u.visit.hours = s.visit.hours ∧ u.flagSet .visit = true ∧
      u.accounts.lastSummary = s.accounts.lastSummary ∧
      (s.accounts.wf = true → (s.accounts.find m = none → s.accounts.records.length < 96) →
        ∃ (p : Nat) (a : Account), u.visit.position = some p ∧ u.accounts.at? p = some a ∧
          a.machineId = m ∧
          a.inUse = true ∧ a.lastUsed = s.clock ∧
          (s.accounts.find m = none → a.fillCount = 0 ∧ a.totalFuel = 0 ∧ a.rate = none ∧
            a.lastHours = none ∧ a.source = .tagOnly ∧ a.stale = false ∧
            a.cls = s.visit.cls.getD .support ∧
            a.fuelCap = s.visit.fuelCap.getD (s.fuelDefault .support) ∧
            a.lubeCap = s.visit.lubeCap.getD #v[s.lubeDefault 0, s.lubeDefault 1, s.lubeDefault 2] ∧
            u.visit.cls = some a.cls ∧ u.visit.fuelCap = some a.fuelCap ∧
            u.visit.lubeCap = some a.lubeCap) ∧
          ∀ q r, s.accounts.find m = some (q, r) → p = q ∧
            (s.visit.origin ≠ some .tag → a = { r with inUse := true, lastUsed := s.clock } ∧
              u.visit.cls = some r.cls ∧ u.visit.fuelCap = some r.fuelCap ∧
              u.visit.lubeCap = some r.lubeCap) ∧
            (s.visit.origin = some .tag → u.visit.cls = s.visit.cls ∧
              u.visit.fuelCap = s.visit.fuelCap ∧ u.visit.lubeCap = s.visit.lubeCap ∧
              ∀ c f l, s.visit.cls = some c → s.visit.fuelCap = some f →
                s.visit.lubeCap = some l →
                a = { r with
                  cls := c, fuelCap := f, lubeCap := l, inUse := true, lastUsed := s.clock }))

/-- R39, R72, R73: CLOSE_VISIT in NONE is REFUSED with STATE, in ENDING changes nothing; it and the
idle timer bring the visit to ENDING with its outcome, its FILL-kind fills in ARMED and STARTING to
IDLE with VISIT_ENDED; other fills go on. That a disarmed fill keeps its flags is the model's choice
(log 60). -/
def Obligations.VisitEnds : Prop :=
  (∀ s : State, s.LineFree →
    (s.visit.state = .none →
      exec .closeVisit s = .next (s.replied 0x07 0 .refused [1])) ∧
    (s.visit.state = .ending → exec .closeVisit s =
      .next (((s.atRequest 0).settle (s.atRequest 0)).formReply 0x07 .done [])) ∧
    (s.visit.state = .querying ∨ s.visit.state = .opened →
      ∃ u : State, exec .closeVisit s =
          .next ((u.settle (s.atRequest 0)).formReply 0x07 .done []) ∧
        VisitEnding (s.atRequest 0) u .closed)) ∧
  ∀ s : State, s.visit.state = .opened → s.visit.idleT.isSome = true →
    ∃ u : State, exec .idleTimerExpiry s = .next (u.settle s) ∧ VisitEnding s u .idleTimeout

/-- R69, R70, R79 to R81, R189: account frames of another station. A FILL_SUMMARY with a sequence not
above the last one held is dropped; else it is applied to the machine's record when its fill count is
higher, counted as a conflict when it is not, or creates a record. A query is answered with the two
parts of the machine's record when one is held. A reply with no window open is late; part 1 in the
window creates the machine's record where none is held, evicting at a full table the one used longest
ago (R75), is adopted into a record held with a lower fill count and dropped for one with as high a
count; part 2 of the same answer gives the lube totals and the stale mark, the record last used now
(R75). The model's choices: a free default capacity under an invalid ACCOUNT RULES section (log 70),
the hours and rate of a record that a LUBE summary creates (log 41), and that with the STATION section
invalid the former own number is another station's too (log 85). -/
def Obligations.AccountFrames : Prop :=
  (∀ (s : State) (f : RxFrame) (rest : List RxFrame) (x : SummaryFields),
     s.link.rxQueue = f :: rest → f.kind = 4 → s.ownNumber ≠ some f.station →
     x = summaryOf f.payload →
     (x.seq.toNat ≤ s.accounts.lastSummary[f.station].toNat →
       exec .fillSummaryTaken s = .next { s with link := { s.link with rxQueue := rest } }) ∧
     (s.accounts.lastSummary[f.station].toNat < x.seq.toNat →
       ∃ t : State, exec .fillSummaryTaken s = .next t ∧
         t = { s with link := { s.link with rxQueue := rest }, accounts := t.accounts,
                      visit := t.visit } ∧
         t.accounts.lastSummary = put s.accounts.lastSummary f.station x.seq ∧
         (∀ p a, s.accounts.find x.machineId = some (p, a) → x.fillCount ≤ a.fillCount →
           t.accounts.records = s.accounts.records ∧ t.visit = s.visit ∧
           t.accounts.conflicts = Nat.min (s.accounts.conflicts + 1) 65535) ∧
         (s.accounts.find x.machineId = none → s.accounts.wf = true → ∃ b : Account,
           Accounts.Created { s.accounts with lastSummary := t.accounts.lastSummary } t.accounts b ∧
           b.machineId = x.machineId ∧ b.fillCount = x.fillCount ∧ b.source = .summary) ∧
         (s.accounts.find x.machineId = none → lowestFree 0 s.accounts.records < 96 →
           ∃ b : Account,
             t.accounts.records =
               insertAt (lowestFree 0 s.accounts.records) b s.accounts.records ∧
             b.machineId = x.machineId ∧ b.cls = .support ∧
             b.fuelCap = s.fuelDefault .support ∧ b.fillCount = x.fillCount ∧
             b.source = .summary ∧ b.lastUsed = s.clock ∧ b.rate = x.rate ∧
             b.hoursAccounted = BitVec.ofNat 32 x.dhUsed ∧
             (b.stale = true ↔ x.fillCount ≠ 1) ∧
             (x.lubeSlot = none → b.totalFuel = x.net) ∧
             t.accounts.conflicts = s.accounts.conflicts) ∧
         (∀ p a, s.accounts.find x.machineId = some (p, a) → a.fillCount < x.fillCount →
           t.visit = s.visit ∧ t.accounts.conflicts = s.accounts.conflicts ∧
           ∃ b : Account, t.accounts.records = insertAt p b s.accounts.records ∧
             b.machineId = a.machineId ∧ b.cls = a.cls ∧ b.fuelCap = a.fuelCap ∧
             b.lubeCap = a.lubeCap ∧ b.inUse = a.inUse ∧ b.fillCount = x.fillCount ∧
             b.source = .summary ∧ b.lastUsed = s.clock ∧
             (b.stale = true ↔ a.fillCount + 1 < x.fillCount) ∧
             (x.lubeSlot = none → b.totalFuel = a.totalFuel + x.net ∧
               b.hoursAccounted = a.hoursAccounted + BitVec.ofNat 32 x.dhUsed ∧
               b.rate = (match x.rate with
                 | none => a.rate
                 | some r => some r) ∧
               (x.net = 0 ∨ x.hours = 0 → b.lastHours = a.lastHours) ∧
               (x.net ≠ 0 → x.hours ≠ 0 → b.lastHours = some (match a.lastHours with
                 | none => x.hours
                 | some l => max l x.hours))) ∧
             ∀ n, x.lubeSlot = some n → b.totalFuel = a.totalFuel ∧
               b.lubeRes[n] = (a.lubeRes[n] + x.net.toNat) % 1000 ∧
               b.lubeTotals[n] = a.lubeTotals[n] +
                 BitVec.ofNat 32 ((a.lubeRes[n] + x.net.toNat) / 1000)))) ∧
  ((∀ (s : State) (f : RxFrame) (rest : List RxFrame), s.link.rxQueue = f :: rest → f.kind = 5 →
     s.ownNumber ≠ some f.station →
     (s.accounts.find (u32At f.payload 0) = none →
       exec .accountQueryTaken s = .next { s with link := { s.link with rxQueue := rest } }) ∧
     ∀ p a, s.accounts.find (u32At f.payload 0) = some (p, a) →
       exec .accountQueryTaken s = .next { s with link :=
         (({ s.link with rxQueue := rest } : Link).offer (.reply1 a)).offer (.reply2 a) }) ∧
   ∀ (s : State) (f : RxFrame) (rest : List RxFrame), s.link.rxQueue = f :: rest → f.kind = 6 →
     s.ownNumber ≠ some f.station →
     ∃ t : State, exec .accountReplyTaken s = .next t ∧
       t = { s with link := { s.link with rxQueue := rest }, accounts := t.accounts,
                    visit := t.visit } ∧
       t.visit.state = s.visit.state ∧ t.accounts.lastSummary = s.accounts.lastSummary ∧
       (s.visit.state ≠ .querying → t.visit = s.visit ∧
         t.accounts = { s.accounts with lateReplies := Nat.min (s.accounts.lateReplies + 1) 65535 }) ∧
       (s.visit.state = .querying → s.visit.machineId = some (u32At f.payload 1) →
         u8At f.payload 0 = 1 → f.payload.length = 32 →
         s.accounts.find (u32At f.payload 1) = none → s.accounts.wf = true → ∃ b : Account,
         Accounts.Created s.accounts t.accounts b ∧
         b = { machineId := u32At f.payload 1, cls := b.cls,
               fuelCap := (u16At f.payload 6).toNat,
               lubeCap := #v[(u16At f.payload 8).toNat, (u16At f.payload 10).toNat,
                 (u16At f.payload 12).toNat],
               lastHours := if u32At f.payload 14 = 0xFFFFFFFF then none
                 else some (u32At f.payload 14).toNat,
               rate := if u32At f.payload 18 = 0xFFFFFFFF then none
                 else some (u32At f.payload 18).toNat,
               fillCount := (u16At f.payload 22).toNat, totalFuel := u32At f.payload 24,
               hoursAccounted := u32At f.payload 28, lubeTotals := #v[0, 0, 0],
               lubeRes := #v[0, 0, 0], source := .reply, stale := true, lastUsed := s.clock,
               inUse := true } ∧
         t.visit = { s.visit with
           position := (t.accounts.find (u32At f.payload 1)).map Prod.fst,
           note := some { station := f.station, fillCount := (u16At f.payload 22).toNat,
                          stale := (u8At f.payload 5).getLsbD 7 } }) ∧
       (s.visit.state = .querying → s.visit.machineId = some (u32At f.payload 1) →
         u8At f.payload 0 = 1 → f.payload.length = 32 → ∀ p a,
         s.accounts.find (u32At f.payload 1) = some (p, a) →
         ((u16At f.payload 22).toNat ≤ a.fillCount →
           t.accounts = s.accounts ∧ t.visit = s.visit) ∧
         (a.fillCount < (u16At f.payload 22).toNat → ∃ b : Account,
           t.accounts.records = insertAt p b s.accounts.records ∧
           b.machineId = u32At f.payload 1 ∧ b.source = .reply ∧ b.inUse = a.inUse ∧
           b.lastUsed = s.clock ∧ b.fillCount = (u16At f.payload 22).toNat ∧
           b.fuelCap = (u16At f.payload 6).toNat ∧ b.totalFuel = u32At f.payload 24 ∧
           b.hoursAccounted = u32At f.payload 28 ∧ b.stale = true ∧
           b.lastHours = (if u32At f.payload 14 = 0xFFFFFFFF then none
             else some (u32At f.payload 14).toNat) ∧
           b.rate = (if u32At f.payload 18 = 0xFFFFFFFF then none
             else some (u32At f.payload 18).toNat))) ∧
       (s.visit.state = .querying → s.visit.machineId = some (u32At f.payload 1) →
         u8At f.payload 0 = 2 → f.payload.length = 25 → ∀ p a n,
         s.accounts.find (u32At f.payload 1) = some (p, a) → s.visit.note = some n →
         (n.station ≠ f.station ∨ n.fillCount ≠ (u16At f.payload 5).toNat ∨
             a.fillCount ≠ (u16At f.payload 5).toNat →
           t.accounts = s.accounts ∧ t.visit = s.visit) ∧
         (n.station = f.station → n.fillCount = (u16At f.payload 5).toNat →
           a.fillCount = (u16At f.payload 5).toNat →
           t.visit = { s.visit with note := none } ∧ t.accounts = s.accounts.set p
             { a with
               lubeTotals := #v[u32At f.payload 7, u32At f.payload 11, u32At f.payload 15],
               lubeRes := #v[(u16At f.payload 19).toNat, (u16At f.payload 21).toNat,
                 (u16At f.payload 23).toNat],
               stale := n.stale, lastUsed := s.clock })))

/-- R77, R78: what crediting a fill of `v` mL does to an account record at hours `h`: the fill count
rises by 1 up to 65,535, the source is OWN; a diesel fill adds to the total fuel and, with a valid
increment of hours of at most 2,000 decihours, takes a sample; a lube fill moves whole litres. -/
def Obligations.Crediting : Prop :=
  ∀ (a : Account) (v : Nat) (h : Option Nat) (now : U32),
    (∀ b x, a.credit v none h now = (b, x) →
      b.fillCount = Nat.min (a.fillCount + 1) 65535 ∧ b.source = .own ∧ b.lastUsed = now ∧
      b.totalFuel = a.totalFuel + BitVec.ofNat 32 v ∧ b.machineId = a.machineId ∧
      b.lubeTotals = a.lubeTotals ∧ x.credit.fillCount = b.fillCount ∧ x.credit.rate = b.rate ∧
      (v = 0 ∨ h = none → b.lastHours = a.lastHours ∧ b.rate = a.rate ∧ x.credit.dhUsed = 0 ∧
        x.notAdvanced = false ∧ x.gap = false) ∧
      ∀ hf, h = some hf → 0 < v →
        (a.lastHours = none → b.lastHours = some hf ∧ b.rate = a.rate ∧ x.credit.dhUsed = 0 ∧
          x.notAdvanced = false ∧ x.gap = false) ∧
        ∀ l, a.lastHours = some l →
          (hf ≤ l → b.lastHours = some l ∧ b.rate = a.rate ∧ x.notAdvanced = true ∧
            x.gap = false ∧ x.credit.dhUsed = 0) ∧
          (2000 < hf - l → b.lastHours = some hf ∧ b.rate = a.rate ∧ x.gap = true ∧
            x.notAdvanced = false ∧ x.credit.dhUsed = 0) ∧
          (l < hf → hf - l ≤ 2000 → b.lastHours = some hf ∧ x.notAdvanced = false ∧
            x.gap = false ∧ x.credit.dhUsed = hf - l ∧
            b.hoursAccounted = a.hoursAccounted + BitVec.ofNat 32 (hf - l) ∧
            (a.rate = none → b.rate = some (min (v * 10 / (hf - l)) 2000000)) ∧
            ∀ e, a.rate = some e → ∃ n : Nat, b.rate = some n ∧
              (n : Int) = e + (((min (v * 10 / (hf - l)) 2000000 : Nat) : Int) - e).tdiv 4)) ∧
    ∀ slot b x, a.credit v (some slot) h now = (b, x) →
      b.fillCount = Nat.min (a.fillCount + 1) 65535 ∧ b.source = .own ∧ b.lastUsed = now ∧
      b.totalFuel = a.totalFuel ∧ b.lastHours = a.lastHours ∧ b.rate = a.rate ∧
      b.lubeRes[slot] = (a.lubeRes[slot] + v) % 1000 ∧
      b.lubeTotals[slot] = a.lubeTotals[slot] +
        BitVec.ofNat 32 ((a.lubeRes[slot] + v) / 1000) ∧
      (∀ n, n ≠ slot → b.lubeRes[n] = a.lubeRes[n] ∧ b.lubeTotals[n] = a.lubeTotals[n]) ∧
      x.credit.dhUsed = 0 ∧ x.notAdvanced = false ∧ x.gap = false

/-- R82 to R84: the allowance of a hose of the visit: for diesel the row of the visit's class and
account, for lube its slot's capacity, then clamped by the stock seen; none when no stock is seen,
at LOW_LOW, or when nothing is left. That the clamp reads reserve and capacity from the working copy
at once, where R85 gives the home unit its values at the next probe sample, is the model's choice
(log 55), as is a free kind of the product while the PRODUCTS section is invalid (log 46). -/
def Obligations.AllowanceRows : Prop :=
  ∀ (s : State) (h : Hose) (o : Bool) (t : Tank), tankOf (s.hoseCfg h).tank = some t →
    (s.views[t].stock = none ∨ s.views[t].state = .lowLow → s.allowance h o = none) ∧
    ∀ st, s.views[t].stock = some st → s.views[t].state ≠ .lowLow →
      ∀ (cap base most : Nat), s.visit.fuelCap = some cap →
      most = (if s.visit.cls = some .priority then st.litres * 1000
        else (st.litres - min (s.tankCfg t).reserve.toNat (s.tankCfg t).capacity.toNat) * 1000) →
      (s.isLube (s.hoseCfg h).product = false →
        (o = true ∨ s.visit.cls = some .priority ∨ s.visit.position = none →
          base = cap * 1000) →
        (∀ p a, o = false → s.visit.cls ≠ some .priority → s.visit.position = some p →
          s.accounts.at? p = some a →
          (a.rate = none ∨ a.lastHours = none → base = cap * 1000) ∧
          ∀ e l, a.rate = some e → a.lastHours = some l →
            (∀ hn, s.visit.hours = some hn → l < hn → base = min (cap * 1000)
              (e * (hn - l) / 10 * (100 + s.cfg.data.rules.margin.toNat) / 100 +
                s.cfg.data.rules.fixedMargin.toNat)) ∧
            (s.visit.hours = none ∨ (∃ hn, s.visit.hours = some hn ∧ hn ≤ l) →
              base = min (cap * 1000) s.cfg.data.rules.topUp.toNat)) →
        (∀ p, o = false → s.visit.cls ≠ some .priority → s.visit.position = some p →
          (s.accounts.at? p).isSome = true) →
        s.allowance h o = if min base most = 0 then none else some (min base most)) ∧
      (s.isLube (s.hoseCfg h).product = true → ∀ slot caps,
        lubeSlotOf (s.hoseCfg h).lubeSlot = some slot → s.visit.lubeCap = some caps →
        s.allowance h o = if min (caps[slot] * 1000) most = 0 then none
          else some (min (caps[slot] * 1000) most))

/-! ## Tanks -/

/-- R87: the gross volume at a level from a strapping table, and the OVER_STRAP mark, which each valid
sample finds afresh. -/
def Obligations.StrapVolume : Prop :=
  (∀ (pts : List (Nat × Nat)) (L : Nat), pts.Pairwise (fun a b => a.1 < b.1 ∧ a.2 ≤ b.2) →
    (∀ p, pts.head? = some p → L ≤ p.1 → strapVolume pts L = (p.2, false)) ∧
    (∀ p, pts.getLast? = some p → p.1 ≤ L → strapVolume pts L = (p.2, decide (p.1 < L))) ∧
    ∀ i p q, pts[i]? = some p → pts[i + 1]? = some q → p.1 ≤ L → L < q.1 →
      strapVolume pts L = (p.2 + (q.2 - p.2) * (L - p.1) / (q.1 - p.1), false)) ∧
  ∀ (u : HomeUnit) (a L : Nat) (r : Reading),
    (u.validSample a L r).gross = some (strapVolume u.cfg.points L).1 ∧
    (u.validSample a L r).overStrap = (strapVolume u.cfg.points L).2

/-- R86, R88 to R91, R98, R100, R111: a probe sample at the home station. A valid one takes level, gross
volume, temperature and gauged value and ends a gauge fault; the stock state follows without
hysteresis when it is the first or ends a fault, else by the table of R90. An invalid one changes
the invalid run alone until the third, which begins the gauge fault. The stock state that
enters LOW_LOW locks the pump out with DRY_RUN, the one that leaves it ends a DRY_RUN lockout in
RESTING, and no other lockout (R111). The model's choices: a shorted probe line counts as invalid
(log 25), a free α while the PRODUCTS section is invalid (log 46), GAUGE_FAULT also where the held value
stands at or below the low-low volume (log 48), the unit's working values taken at the sample
(log 55), and the pump timers that a lockout and an entry to RESTING stop (log 54). `u` is the state
before the close of the event. -/
def Obligations.ProbeSamples : Prop :=
  ∀ (s : State) (t : Tank) (lv tp : Reading) (x : HomeUnit) (c : TankCfg),
    s.home[t] = some x → x.sampleT.isSome = true → s.sectionValid .tanks = true →
    c = s.tankCfg t →
    ∃ (u : State) (y : HomeUnit), exec (.probeSample t lv tp) s = .next (u.settle s) ∧
      StillFrame s u ∧ u.home[t] = some y ∧ y.sampleT = some 1000 ∧ y.receipt = x.receipt ∧
      y.cfg = c ∧
      (∀ k : Tank, k ≠ t → u.home[k] = s.home[k] ∧ u.views[k] = s.views[k] ∧
        u.pumps[k] = s.pumps[k]) ∧
      u.visit = s.visit ∧ u.accounts = s.accounts ∧ u.shut = s.shut ∧ u.tag = s.tag ∧
      (∀ v : Int, lv = .value v → 0 ≤ v → v ≤ 20000 → strapUsable c.points = true →
        y.level = some v.toNat ∧ y.gross = some (strapVolume c.points v.toNat).1 ∧
        y.overStrap = (strapVolume c.points v.toNat).2 ∧ y.invalidRun = 0 ∧ y.fault = false ∧
        (∀ d : Int, tp = .value d → -400 ≤ d → d ≤ 800 → y.t10 = d ∧ y.tempStatus = .valid) ∧
        ((∀ d : Int, tp = .value d → d < -400 ∨ 800 < d) →
          y.t10 = 150 ∧ y.tempStatus = .default) ∧
        ∃ g : Nat, y.gauged = some { litres := g, ml := 0, degraded := false } ∧
          g = (strapVolume c.points v.toNat).1 *
            (max 900000 (min 1100000 (1000000 -
              ((s.alpha c.product : Int) * (y.t10 - 150)).tdiv 10))).toNat / 1000000 ∧
          ((x.fault = true ∨ x.gauged = none ∨ x.stockState = .normal) → y.stockState =
            if g ≤ c.lowLowUsed then .lowLow else if g ≤ c.reserveUsed then .reserve
            else .normal) ∧
          (x.fault = false → x.gauged.isSome = true → x.stockState = .reserve →
            y.stockState = if g ≤ c.lowLowUsed then .lowLow
              else if c.reserveUsed + c.capacity.toNat / 100 < g then .normal else .reserve) ∧
          (x.fault = false → x.gauged.isSome = true → x.stockState = .lowLow →
            y.stockState = if c.reserveUsed + c.capacity.toNat / 100 < g then .normal
              else if c.lowLowUsed + c.capacity.toNat / 100 < g then .reserve else .lowLow) ∧
          ((x.fault = true ∨ x.gauged = none) → x.recon = .suspended →
            y.recon = .balanced ∧ y.book = some { litres := g, ml := 0 } ∧ y.throughput = 0 ∧
            y.lossRun = 0) ∧
          (x.fault = false → x.gauged.isSome = true → y.recon = x.recon ∧ y.book = x.book ∧
            y.throughput = x.throughput)) ∧
      (((∀ v : Int, lv = .value v → v < 0 ∨ 20000 < v) ∨ strapUsable c.points = false) →
        y.level = x.level ∧ y.gross = x.gross ∧ y.invalidRun = min (x.invalidRun + 1) 3 ∧
        y.gauged.map Gauged.litres = x.gauged.map Gauged.litres ∧
        (x.invalidRun < 2 → y.stockState = x.stockState ∧ y.recon = x.recon ∧
          y.fault = x.fault ∧ y.gauged = x.gauged) ∧
        (2 ≤ x.invalidRun → x.fault = false → y.fault = true ∧ y.stockState = .gaugeFault ∧
          (∀ g, y.gauged = some g → g.degraded = true) ∧
          (x.recon = .balanced ∨ x.recon = .watch → y.recon = .suspended ∧ y.lossRun = 0) ∧
          (x.recon = .lossAlarm ∨ x.recon = .receiving → y.recon = x.recon))) ∧
      (∀ p, s.pumps[t] = some p →
        (p.state ≠ .lockedOut → x.stockState ≠ .lowLow → y.stockState = .lowLow →
          u.flagSet .pump = true ∧ u.pumps[t] = some { p with
            state := .lockedOut, reason := some .dryRun, startT := none, lossT := none,
            runOnT := none, restT := none, lockouts := Nat.min (p.lockouts + 1) 65535 }) ∧
        (p.state = .lockedOut → p.reason = some .dryRun → x.stockState = .lowLow →
          y.stockState ≠ .lowLow → u.pumps[t] = some { p with
            state := .resting, reason := none, startT := none, lossT := none, runOnT := none,
            restT := some 10000 }) ∧
        (p.state = .lockedOut → p.reason ≠ some .dryRun ∨ y.stockState = .lowLow →
          u.pumps[t] = some p)) ∧
      (x.stockState ≠ y.stockState ∨ x.recon ≠ y.recon → u.flagSet .stock = true ∧
        y.gaugeT = some 10000 ∧ u.views[t].state = (if y.gauged = none then .gaugeFault
          else y.stockState))

/-- R91, R93, R114, R146: the GAUGE period offers a frame of a home tank and sets the own view; GAUGE
and PUMP frames of a tank's home station set its view, those of another station raise the foreign gauges
count, those naming no tank are dropped. The model's choices: for a tank homed here whose home station
in use is still another number, the pump view stands and a PUMP frame of that number is a foreign one
(log 57); a frame arrives at the clock of the event that takes it (log 47); with the TANKS section
invalid the period offers nothing (log 29); states and reasons that no list names are free values (log
12); with the STATION section invalid the former own number is another station's too (log 85). `u` is
the state before the close of the event. -/
def Obligations.GaugeAndPumpFrames : Prop :=
  (∀ (s : State) (t : Tank) (x : HomeUnit), s.home[t] = some x → x.gaugeT.isSome = true →
    (s.sectionValid .tanks = false → ∃ y : HomeUnit, exec (.gaugePeriodExpiry t) s =
      .next { s with home := put s.home t (some y) } ∧ y = { x with gaugeT := some 10000 }) ∧
    (s.sectionValid .tanks = true → ∃ u : State, exec (.gaugePeriodExpiry t) s = .next u ∧
      u = { s with home := u.home, views := u.views, link := u.link, flags := u.flags } ∧
      u.home = put s.home t (some { x with gaugeT := some 10000, offered := true }) ∧
      u.link = s.link.offer (.gauge t x.gaugeFields) ∧
      (∀ k : Tank, k ≠ t → u.views[k] = s.views[k]) ∧
      u.views[t].stock = x.gauged.map (fun g => { litres := g.litres, ml := 0 }) ∧
      u.views[t].state = (if x.gauged = none then .gaugeFault else x.stockState) ∧
      u.views[t].noValue = decide (x.gauged = none) ∧
      u.views[t].pump = s.views[t].pump ∧
      (u.views[t].state ≠ s.views[t].state → u.flagSet .stock = true))) ∧
  (∀ (s s' : State) (f : RxFrame) (rest : List RxFrame), s.link.rxQueue = f :: rest →
    f.kind = 3 → s.ownNumber ≠ some f.station →
    s' = { s with link := { s.link with rxQueue := rest } } →
    (tankOf (u8At f.payload 0) = none →
      exec .gaugeFrameTaken s = .next (s'.settle s')) ∧
    ∀ t, tankOf (u8At f.payload 0) = some t → ∃ u : State,
      exec .gaugeFrameTaken s = .next (u.settle s') ∧
      (∀ k : Tank, k ≠ t → u.views[k] = s.views[k]) ∧ StillFrame s u ∧ u.home = s.home ∧
      (s.cfg.homeOf[t] ≠ some f.station → u = { s' with views := u.views } ∧
        u.views[t] = { s.views[t] with foreign := Nat.min (s.views[t].foreign + 1) 65535 }) ∧
      (s.cfg.homeOf[t] = some f.station →
        ((u8At f.payload 9).getLsbD 4 = true →
          u.views[t].stock = none ∧ u.views[t].state = .gaugeFault ∧
          u.views[t].noValue = true) ∧
        ((u8At f.payload 9).getLsbD 4 = false →
          u.views[t].stock = some { litres := (u32At f.payload 1).toNat, ml := 0 } ∧
          u.views[t].state = stockStateOf (u8At f.payload 7)) ∧
        u.views[t].degraded = (u8At f.payload 9).getLsbD 1 ∧
        u.views[t].lastTotals = s.views[t].lastTotals ∧
        (u.views[t].state ≠ s.views[t].state → u.flagSet .stock = true) ∧
        (∃ g : LastGauge, u.views[t].lastGauge = some g ∧ g.arrived = s.clock ∧
          g.recon = reconStateOf (u8At f.payload 8) ∧
          g.receipt = (u8At f.payload 9).getLsbD 0 ∧
          g.overStrap = (u8At f.payload 9).getLsbD 2 ∧
          g.tempDefault = (u8At f.payload 9).getLsbD 3 ∧
          ((u8At f.payload 9).getLsbD 4 = false → g.level = (u16At f.payload 5).toNat)) ∧
        (s.home[t] ≠ none → u.views[t].pump = s.views[t].pump ∧ u.hoses = s.hoses) ∧
        (s.home[t] = none →
          (pumpStateOf (u8At f.payload 10) ≠ .lockedOut ∨ s.views[t].pump = .unknown →
            u.views[t].pump = .known (pumpStateOf (u8At f.payload 10)) none) ∧
          ∀ x r, pumpStateOf (u8At f.payload 10) = .lockedOut →
            s.views[t].pump = .known x r → u.views[t].pump = .known .lockedOut r))) ∧
  ∀ (s s' : State) (f : RxFrame) (rest : List RxFrame), s.link.rxQueue = f :: rest →
    f.kind = 2 → s.ownNumber ≠ some f.station →
    s' = { s with link := { s.link with rxQueue := rest } } →
    (tankOf (u8At f.payload 0) = none →
      exec .pumpFrameTaken s = .next (s'.settle s')) ∧
    ∀ t, tankOf (u8At f.payload 0) = some t → ∃ u : State,
      exec .pumpFrameTaken s = .next (u.settle s') ∧
      (∀ k : Tank, k ≠ t → u.views[k] = s.views[k]) ∧ StillFrame s u ∧ u.home = s.home ∧
      (s.cfg.homeOf[t] ≠ some f.station ∨ s.home[t] ≠ none →
        u = { s' with views := u.views } ∧
        u.views[t] = { s.views[t] with foreign := Nat.min (s.views[t].foreign + 1) 65535 }) ∧
      (s.cfg.homeOf[t] = some f.station → s.home[t] = none →
        (pumpStateOf (u8At f.payload 1) = .lockedOut → s.views[t].pump.lockedOut = false →
          u.flagSet .pump = true) ∧
        u.views[t] = { s.views[t] with
          pump := PumpView.known (pumpStateOf (u8At f.payload 1))
            (lockReasonOf (u8At f.payload 2)) } ∧
        (∀ h : Hose, (s.fill h).tank = some t → s.views[t].pump.isRunning = true →
          pumpStateOf (u8At f.payload 1) ≠ .running →
          (s.fill h).state = .flowing ∨ (s.fill h).state = .slowing →
          (u.fill h).state = .held ∧ (u.fill h).holds.pumpLost = true ∧
          (u.fill h).holdT = some 180000))

/-- R99, R123: an evaluation of a homed tank with book and gauged value: the variance, the loss limit
and the states of reconciliation; the third loss in a row raises LOSS_ALARM and with it the bay
cause STOCK_LOSS. The model's choices: the variance is taken from the litres alone, without the mL
remainders of book and gauged value (log 20), and the loss limit is that of the unit's working values,
which the last probe sample took (log 55). -/
def Obligations.Reconciliation : Prop :=
  ∀ (s : State) (t : Tank) (x : HomeUnit) (g : Gauged) (b : Book) (V M : Int),
    s.home[t] = some x → x.evalT.isSome = true → s.sectionValid .tanks = true →
    x.gauged = some g → x.book = some b → V = (g.litres : Int) - b.litres →
    M = (x.cfg.lossThreshold.toNat +
      x.cfg.lossProportion.toNat * x.throughput.toNat / 1000 : Nat) →
    ∃ (u : State) (y : HomeUnit), exec (.reconciliationEvaluation t) s = .next (u.settle s) ∧
      StillFrame s u ∧ u.home[t] = some y ∧ y.evalT = some 60000 ∧ y.book = x.book ∧
      y.gauged = x.gauged ∧ y.stockState = x.stockState ∧ y.receipt = x.receipt ∧
      (∀ k : Tank, k ≠ t → u.home[k] = s.home[k]) ∧
      (x.recon = .receiving ∨ x.recon = .suspended → y.recon = x.recon ∧
        y.variance = x.variance ∧ y.lossRun = x.lossRun) ∧
      (x.recon = .balanced ∨ x.recon = .watch ∨ x.recon = .lossAlarm → y.variance = V) ∧
      (x.recon = .balanced → V < -M → y.recon = .watch ∧ y.lossRun = 1) ∧
      (x.recon = .balanced ∨ x.recon = .watch → -M ≤ V →
        y.recon = .balanced ∧ y.lossRun = 0) ∧
      (x.recon = .watch → V < -M → x.lossRun < 2 →
        y.recon = .watch ∧ y.lossRun = x.lossRun + 1) ∧
      (x.recon = .watch → V < -M → 2 ≤ x.lossRun → y.recon = .lossAlarm ∧
        (∃ l : List BayCause, u.shut.origin = some l ∧ BayCause.stockLoss ∈ l) ∧ u.holdsBay = true) ∧
      (x.recon = .lossAlarm → y.recon = .lossAlarm ∧ u.shut = s.shut) ∧
      (x.recon ≠ y.recon → u.flagSet .stock = true)

/-- R101, R102: RECEIPT_START and RECEIPT_END: refused by the first check that fails with nothing
changed; the first opens the receipt with one reservation, the second computes the volume received,
queues its record and rebases the book. The model's choices: the product of the record is the unit's
working value, which changes at the first sample after a reload (log 55); the volume received and the
draws are not bounded before the reply and the record carry them modulo 2^32 (log 72). `u` is the state
before the close of the event. -/
def Obligations.Receipts : Prop :=
  (∀ (s : State) (b : Byte), s.LineFree → b.toNat = 0 ∨ 8 < b.toNat →
    exec (.receiptStart b) s = .next (s.replied 0x11 1 .refused [12]) ∧
    exec (.receiptEnd b) s = .next (s.replied 0x12 1 .refused [12])) ∧
  ∀ (s : State) (b : Byte) (t : Tank), s.LineFree → b.toNat = t.val + 1 →
    (s.cfg.fault = true →
      exec (.receiptStart b) s = .next (s.replied 0x11 1 .refused [10]) ∧
      exec (.receiptEnd b) s = .next (s.replied 0x12 1 .refused [10])) ∧
    (s.cfg.fault = false → s.home[t] = none →
      exec (.receiptStart b) s = .next (s.replied 0x11 1 .refused [8]) ∧
      exec (.receiptEnd b) s = .next (s.replied 0x12 1 .refused [8])) ∧
    ∀ x, s.cfg.fault = false → s.home[t] = some x →
      (x.recon ≠ .balanced → x.recon ≠ .watch →
        exec (.receiptStart b) s = .next (s.replied 0x11 1 .refused [1])) ∧
      (x.receipt = none → exec (.receiptEnd b) s = .next (s.replied 0x12 1 .refused [1])) ∧
      (x.recon = .balanced ∨ x.recon = .watch →
        (1024 ≤ s.logUse →
          exec (.receiptStart b) s = .next (s.replied 0x11 1 .refused [3])) ∧
        (s.logUse < 1024 →
          ∃ (u : State) (y : HomeUnit) (r : Receipt), exec (.receiptStart b) s =
            .next ((u.settle (s.atRequest 1)).formReply 0x11 .done
              (beBytes 4 ((x.gauged.map Gauged.litres).getD 0))) ∧
            StillFrame (s.atRequest 1) u ∧
            u.nv = { s.nv with reservations := s.nv.reservations + 1 } ∧
            u.home[t] = some y ∧ y.recon = .receiving ∧ y.lossRun = 0 ∧
            y.receipt = some r ∧ r.draws = 0 ∧ r.startTime = s.clock ∧
            r.startGauged = (x.gauged.map Gauged.litres).getD 0 ∧
            r.startLevel = x.level.getD 0 ∧ y.book = x.book ∧ y.gauged = x.gauged ∧
            y.stockState = x.stockState ∧ u.flagSet .stock = true)) ∧
      ∀ r, x.receipt = some r →
        ∃ (u : State) (y : HomeUnit) (v : Int), exec (.receiptEnd b) s =
            .next ((u.settle (s.atRequest 1)).formReply 0x12 .done (beInt 4 v)) ∧
          v = (((x.gauged.map Gauged.litres).getD 0 : Nat) - (r.startGauged : Int)) * 1000 +
            r.draws ∧
          u.home[t] = some y ∧ y.receipt = none ∧ y.throughput = 0 ∧
          y.book = x.gauged.map (fun g => { litres := g.litres, ml := g.ml }) ∧
          y.recon = (if x.fault then .suspended else .balanced) ∧
          u.flagSet .stock = true ∧ u.nv.reservations = s.nv.reservations ∧
          (s.nv.queue.length < 12 → ∃ rec : Record,
            u.nv.queue = s.nv.queue ++ [.record .receipt rec] ∧ rec.kind = .receipt ∧
            rec.tank = t ∧ rec.product = x.cfg.product ∧ rec.startTime = r.startTime ∧ rec.endTime = s.clock ∧
            rec.flags.negative = decide (v < 0) ∧
            ∃ q : ReceiptFields, rec.receipt = some q ∧ q.received = v ∧ q.draws = r.draws ∧
              q.startGauged = r.startGauged ∧ q.startLevel = r.startLevel ∧
              q.endLevel = x.level.getD 0)

/-- R89, R94, R95, R98: a draw total heard. Without a last total nothing is drawn; a positive change
is drawn from the view, of a tank homed here too, whose stock state is re-derived at the thresholds,
and, at home, from book, throughput, the receipt and a degraded gauged value, which stops at 0 and at
or below the low-low volume makes the stock state LOW_LOW; a negative one draws nothing and, without
an epoch change, counts an anomaly. A change of the home unit's stock state offers a GAUGE frame, and
the own view then holds the value of that frame (R91). The model's choices: a degraded value that
stops at 0 has remainder 0 as R95 has it for a view (log 20); a value or view that stands
at or below a threshold already takes the lower state at any draw (log 48); the thresholds are the unit's
working values at home and the working copy's elsewhere (log 55); with the TANKS section invalid no stock
state is derived and draws lower view, book and degraded value all the same (log 29). -/
def Obligations.Draws : Prop :=
  ∀ (s : State) (p : Station) (t : Tank) (total : U32) (changed : Bool),
    (s.views[t].lastTotals[p] = none → s.takeTotal p t total changed =
      { s with views := put s.views t { s.views[t] with
          lastTotals := put s.views[t].lastTotals p (some total) } }) ∧
    ∀ last d, s.views[t].lastTotals[p] = some last → d = (total - last).toInt →
      ∃ u : State, s.takeTotal p t total changed = u ∧ StillFrame s u ∧
        u.views[t].lastTotals = put s.views[t].lastTotals p (some total) ∧
        (∀ k : Tank, k ≠ t → u.views[k] = s.views[k] ∧ u.home[k] = s.home[k]) ∧
        (d = 0 → u = { s with views := u.views } ∧ u.views[t].stock = s.views[t].stock) ∧
        (d < 0 → u.home = s.home ∧ u.views[t].stock = s.views[t].stock ∧
          u.views[t].state = s.views[t].state ∧
          (changed = true → u.views[t].anomalies = s.views[t].anomalies ∧ u.flags = s.flags) ∧
          (changed = false →
            u.views[t].anomalies = Nat.min (s.views[t].anomalies + 1) 65535 ∧
            u.flagSet .stock = true)) ∧
        (0 < d → s.views[t].stock = none → (∀ x y, s.home[t] = some x → u.home[t] = some y →
            y.stockState = x.stockState) → u.views[t].stock = none ∧
          u.views[t].state = s.views[t].state) ∧
        (0 < d → ∀ st c, s.views[t].stock = some st →
          (s.home[t] = none → c = s.tankCfg t) → (∀ x, s.home[t] = some x → c = x.cfg) →
          (∀ x y, s.home[t] = some x → u.home[t] = some y → y.stockState = x.stockState) →
          ∃ n : Stock, u.views[t].stock = some n ∧
            ((st.ml + d.toNat) / 1000 ≤ st.litres →
              n.litres = st.litres - (st.ml + d.toNat) / 1000 ∧
              n.ml = (st.ml + d.toNat) % 1000) ∧
            (st.litres < (st.ml + d.toNat) / 1000 → n.litres = 0 ∧ n.ml = 0) ∧
            u.views[t].degraded = s.views[t].degraded ∧
            (s.sectionValid .tanks = false → u.views[t].state = s.views[t].state) ∧
            (s.sectionValid .tanks = true →
              (n.litres ≤ c.lowLowUsed → u.views[t].state = .lowLow) ∧
              (c.lowLowUsed < n.litres →
                (s.views[t].state = .normal → n.litres ≤ c.reserveUsed →
                  u.views[t].state = .reserve) ∧
                (s.views[t].state ≠ .normal ∨ c.reserveUsed < n.litres →
                  u.views[t].state = s.views[t].state)))) ∧
        (0 < d → ∀ x, s.home[t] = some x → ∃ y : HomeUnit, u.home[t] = some y ∧
          (x.book = none → y.book = none ∧ y.throughput = x.throughput) ∧
          (∀ b, x.book = some b →
            y.book = some { litres := b.litres - ((b.ml + d.toNat) / 1000 : Nat),
                            ml := (b.ml + d.toNat) % 1000 } ∧
            y.throughput =
              x.throughput + BitVec.ofNat 32 ((x.throughputMl + d.toNat) / 1000) ∧
            y.throughputMl = (x.throughputMl + d.toNat) % 1000) ∧
          y.recon = x.recon ∧ y.level = x.level ∧ y.cfg = x.cfg ∧
          (∀ r, x.receipt = some r →
            y.receipt = some { r with draws := r.draws + d.toNat }) ∧
          (x.fault = false ∨ x.gauged = none →
            y.gauged = x.gauged ∧ y.stockState = x.stockState) ∧
          (∀ g, x.fault = true → x.gauged = some g → ∃ v : Gauged, y.gauged = some v ∧
            v.degraded = g.degraded ∧
            ((g.ml + d.toNat) / 1000 ≤ g.litres →
              v.litres = g.litres - (g.ml + d.toNat) / 1000 ∧
              v.ml = (g.ml + d.toNat) % 1000) ∧
            (g.litres < (g.ml + d.toNat) / 1000 → v.litres = 0 ∧ v.ml = 0) ∧
            (s.sectionValid .tanks = true → v.litres ≤ x.cfg.lowLowUsed →
              y.stockState = .lowLow) ∧
            (s.sectionValid .tanks = false ∨ x.cfg.lowLowUsed < v.litres →
              y.stockState = x.stockState) ∧
            (y.stockState ≠ x.stockState → u.flagSet .stock = true ∧
              u.views[t].stock = some { litres := v.litres, ml := 0 } ∧
              u.views[t].state = .lowLow ∧
              ∀ p, s.pumps[t] = some p → p.state ≠ .lockedOut → ∃ q : Pump,
                u.pumps[t] = some q ∧ q.state = .lockedOut ∧ q.reason = some .dryRun)))

/-! ## Pumps -/

/-- R105 to R109, R112: the pump controller. The start timer locks it out with NO_PRESSURE, the
pressure-loss timer with PRESSURE_LOST; the run-on timer brings it to RESTING for 10 s; the rest timer
to STOPPED, and in the same step to STARTING when the conditions of R107 hold; a remote member's
expiry takes it out of the demand set, which brings a RUNNING pump to RUN_ON when it was the last.
Feedback that comes on confirms a start; that goes off starts the 1 s pressure-loss timer in RUNNING
and RUN_ON, and comes on again stops it. CLEAR_PUMP_LOCKOUT is refused by the first check that fails,
else it brings the pump to RESTING for 10 s. That the run-on expiry stops a running pressure-loss timer
and a PRESSURE_LOST lockout the run-on timer is the model's choice (log 54). `u` is the state before
the close of the event. -/
def Obligations.PumpController : Prop :=
  (∀ (s : State) (t : Tank) (p : Pump), s.pumps[t] = some p →
     (p.state = .starting → p.startT.isSome = true → ∃ u : State,
       exec (.pumpStartTimerExpiry t) s = .next (u.settle s) ∧ u.flagSet .pump = true ∧
       PumpMoves s u t { p with
         state := .lockedOut, reason := some .noPressure, startT := none, lossT := none,
         runOnT := none, restT := none, lockouts := Nat.min (p.lockouts + 1) 65535 }) ∧
     (p.state = .running ∨ p.state = .runOn → p.lossT.isSome = true → ∃ u : State,
       exec (.pressureLossTimerExpiry t) s = .next (u.settle s) ∧ u.flagSet .pump = true ∧
       PumpMoves s u t { p with
         state := .lockedOut, reason := some .pressureLost, startT := none, lossT := none,
         runOnT := none, restT := none, lockouts := Nat.min (p.lockouts + 1) 65535 }) ∧
     (p.state = .runOn → p.runOnT.isSome = true → ∃ u : State,
       exec (.runOnTimerExpiry t) s = .next (u.settle s) ∧ u.flags = s.flags ∧
       PumpMoves s u t { p with
         state := .resting, reason := none, startT := none, lossT := none, runOnT := none,
         restT := some 10000 }) ∧
     (p.state = .resting → p.restT.isSome = true →
       (p.Deserted ∨ s.holdsBay = true ∨ s.link.dupStation = true ∨ s.homeLow t = true → ∃ u : State,
         exec (.restTimerExpiry t) s = .next (u.settle s) ∧ u.flags = s.flags ∧
         PumpMoves s u t { p with state := .stopped, restT := none }) ∧
       (¬ p.Deserted → s.holdsBay = false → s.link.dupStation = false → s.homeLow t = false →
         s.pressure[t] = false → ∃ v u : State,
         exec (.restTimerExpiry t) s = .next (u.settle s) ∧ u.flags = s.flags ∧
         PumpMoves s v t { p with state := .stopped, restT := none } ∧
         PumpMoves v u t { p with state := .starting, restT := none, startT := some 5000,
                                  starts := Nat.min (p.starts + 1) 65535 })) ∧
     ∀ (m : Station) (q : Pump), p.remote[m].isSome = true →
       q = { p with remote := put p.remote m none } →
       (q.Deserted → p.state = .running → ∃ v u : State,
         exec (.demandExpiryTimerExpiry t m) s = .next (u.settle s) ∧
         v = { s with pumps := put s.pumps t (some q) } ∧
         PumpMoves v u t { q with state := .runOn, runOnT := some 5000 }) ∧
       (¬ q.Deserted → p.state ≠ .stopped → p.state ≠ .runOn → ∃ u : State,
         exec (.demandExpiryTimerExpiry t m) s = .next (u.settle s) ∧
         u = { s with pumps := put s.pumps t (some q) })) ∧
  ((∀ (s : State) (t : Tank) (p : Pump), s.pumps[t] = some p →
     (s.pressure[t] = false → p.state = .starting → ¬ p.Deserted → ∃ u : State,
       exec (.pressureFeedbackChange t true) s = .next (u.settle s) ∧
       PumpMoves { s with pressure := put s.pressure t true } u t
         { p with state := .running, startT := none, runOnT := none }) ∧
     (s.pressure[t] = false → p.state = .starting → p.Deserted → ∃ v u : State,
       exec (.pressureFeedbackChange t true) s = .next (u.settle s) ∧
       PumpMoves { s with pressure := put s.pressure t true } v t
         { p with state := .running, startT := none, runOnT := none } ∧
       PumpMoves v u t { p with state := .runOn, startT := none, runOnT := some 5000 }) ∧
     (s.pressure[t] = true → p.state = .running ∨ p.state = .runOn → ∃ u : State,
       exec (.pressureFeedbackChange t false) s = .next (u.settle s) ∧
       u = { s with pressure := put s.pressure t false,
                    pumps := put s.pumps t (some { p with lossT := some (p.lossT.getD 1000) }) }) ∧
     (s.pressure[t] = false → p.state = .running ∨ p.state = .runOn → ∃ u : State,
       exec (.pressureFeedbackChange t true) s = .next (u.settle s) ∧
       u = { s with pressure := put s.pressure t true,
                    pumps := put s.pumps t (some { p with lossT := none }) }) ∧
     ∀ on, s.pressure[t] ≠ on →
       (p.state = .stopped ∨ p.state = .resting ∨ p.state = .lockedOut ∨
         (p.state = .starting ∧ on = false)) → ∃ u : State,
       exec (.pressureFeedbackChange t on) s = .next (u.settle s) ∧
       u = { s with pressure := put s.pressure t on }) ∧
   ∀ (s : State) (b : Byte), s.LineFree →
     (b.toNat = 0 ∨ 8 < b.toNat →
       exec (.clearPumpLockout b) s = .next (s.replied 0x13 1 .refused [12])) ∧
     ∀ t : Tank, b.toNat = t.val + 1 →
       (s.home[t] = none →
         exec (.clearPumpLockout b) s = .next (s.replied 0x13 1 .refused [8])) ∧
       (∀ x p, s.home[t] = some x → s.pumps[t] = some p →
         (p.state ≠ .lockedOut ∨ x.stockState = .lowLow →
           exec (.clearPumpLockout b) s = .next (s.replied 0x13 1 .refused [1])) ∧
         (p.state = .lockedOut → x.stockState ≠ .lowLow → ∃ u : State,
           exec (.clearPumpLockout b) s =
             .next ((u.settle (s.atRequest 1)).formReply 0x13 .done []) ∧
           u.flags = s.flags ||| EventFlag.pump.mask ∧
           PumpMoves (s.atRequest 1) u t { p with
             state := .resting, reason := none, startT := none, lossT := none, runOnT := none,
             restT := some 10000 })))

/-! ## Shutdown -/

/-- R117, R123, R124, R131: the bay inputs. A raw change starts the input's debounce time (20 ms for
the emergency stop, 2 s else) when the input is read and the change is away from the debounced
state, else stops it. The time's end takes the raw state up; one that is active raises its cause:
it creates the origin, which begins a bay shutdown when the source set was empty, or is added to
its list when not listed. Each such change offers a SPILL with the whole list, which is in the
transmit queue then; a place that the RESTORE it withdraws frees goes to the pending offers at once,
before any other frame of the event (R144). A line that reads open or shorted is read as active. -/
def Obligations.BayInputs : Prop :=
  (∀ (s : State) (i : BayInput) (line : LineReading) (active : Bool),
    (active = true ↔ line = .active ∨ line = .openLine ∨ line = .shorted) → ∃ t : State,
    exec (.bayInputChange i line) s = .next t ∧ t = { s with shut := t.shut } ∧
    t.shut = s.shut.setInput i (t.shut.input i) ∧
    ((s.shut.input i).raw = active → t.shut.input i = s.shut.input i) ∧
    ((s.shut.input i).raw ≠ active → (t.shut.input i).raw = active ∧
      (t.shut.input i).debounced = (s.shut.input i).debounced ∧
      ((s.shut.input i).debounced = active → (t.shut.input i).timer = none) ∧
      ((s.shut.input i).debounced ≠ active →
        (i = .estop → (t.shut.input i).timer = some 20) ∧
        (i = .sump → (t.shut.input i).timer = some 2000) ∧
        ∀ x, i = .bund x →
          (s.home[x] = none → (t.shut.input i).timer = none) ∧
          (s.home[x] ≠ none → (t.shut.input i).timer = some 2000)))) ∧
  ∀ (s s' : State) (i : BayInput) (c : BayCause), (s.shut.input i).timer.isSome = true →
    (i = .estop ∧ c = .estop ∨ i = .sump ∧ c = .sump ∨ ∃ x : Tank, i = .bund x ∧ c = .bund x) →
    s' = { s with shut := (s.shut.setInput i
      { (s.shut.input i) with debounced := (s.shut.input i).raw, timer := none }) } →
    ((s.shut.input i).raw = false →
      exec (.bayInputDebounceExpiry i) s = .next (s'.settle s)) ∧
    ((s.shut.input i).raw = true → ∃ u : State,
      exec (.bayInputDebounceExpiry i) s = .next (u.settle s) ∧ StillFrame s u ∧
      (∀ l, s.shut.origin = some l → c ∈ l → u = s') ∧
      (∀ l, s.shut.origin = some l → c ∉ l →
        u = { s' with shut := { s'.shut with origin := some (l ++ [c]) },
                      link := (s.offerSpill (l ++ [c])).link,
                      flags := s.flags ||| EventFlag.shutdown.mask }) ∧
      (s.shut.origin = none → u.flagSet .shutdown = true ∧ u.holdsBay = true ∧
        u.shut = { s'.shut with origin := some [c], bayShutdowns := u.shut.bayShutdowns } ∧
        (s.link.txQueue.length < 8 ∨
            (s.link.txQueue.length = 8 ∧ ∃ e ∈ s.link.txQueue, e.sending = false) →
          ∃ e ∈ u.link.txQueue, e.frame = .spill [c] ∧ e.sending = false) ∧
        ((∀ x : Tank, s.pumps[x] = none) → u.link = (s.offerSpill [c]).link) ∧
        (s.holdsBay = true → u.shut.bayShutdowns = s.shut.bayShutdowns ∧
          u.link = (s.offerSpill [c]).link ∧ u.hoses = s.hoses ∧ u.pumps = s.pumps) ∧
        (s.holdsBay = false → u.BayStopped ∧
          u.shut.bayShutdowns = Nat.min (s.shut.bayShutdowns + 1) 65535)))

/-- R120, R122: CLEAR_HOSE_FAULT and CLEAR_LANE_SHUTDOWN are refused by the first check that fails with
nothing changed. Accepted, the one empties the hose fault set of its hose; the other clears the latch
and its list and acts on no bay shutdown and no hose fault; each sets the SHUTDOWN flag and is answered
DONE. -/
def Obligations.ClearFaults : Prop :=
  (∀ (s : State) (b : Byte), s.LineFree →
     (4 ≤ b.toNat → exec (.clearHoseFault b) s = .next (s.replied 0x14 1 .refused [12])) ∧
     ∀ h : Hose, b.toNat = h.val →
       (s.hoses[h].faults = { meter := false, valve := false } →
         exec (.clearHoseFault b) s = .next (s.replied 0x14 1 .refused [1])) ∧
       (s.hoses[h].faults ≠ { meter := false, valve := false } →
         ((s.hoses[h].faults.meter = true ∧ (s.meter h).mismatchRun = 5) ∨
           (s.hoses[h].faults.valve = true ∧ s.hoses[h].valve.present = true) →
           exec (.clearHoseFault b) s = .next (s.replied 0x14 1 .refused [9])) ∧
         ((s.hoses[h].faults.meter = true → (s.meter h).mismatchRun ≠ 5) →
           (s.hoses[h].faults.valve = true → s.hoses[h].valve.present = false) →
           exec (.clearHoseFault b) s = .next
             ({ s with
                 hoses := put s.hoses h
                   { s.hoses[h] with faults := { meter := false, valve := false } },
                 flags := s.flags ||| EventFlag.shutdown.mask }.replied 0x14 1 .done [])))) ∧
  (∀ s : State, s.LineFree →
     (s.shut.latch = false →
       exec .clearLaneShutdown s = .next (s.replied 0x15 0 .refused [1])) ∧
     (s.shut.latch = true →
       ((∃ (h : Hose) (c : Creep), s.shut.creepList[h] = true ∧ (s.meter h).creep = some c ∧
           c.raised = true) →
         exec .clearLaneShutdown s = .next (s.replied 0x15 0 .refused [9])) ∧
       ((∀ (h : Hose) (c : Creep), s.shut.creepList[h] = true → (s.meter h).creep = some c →
           c.raised = false) →
         ∃ u : State, exec .clearLaneShutdown s =
             .next ((u.settle (s.atRequest 0)).formReply 0x15 .done []) ∧
           u = { s.atRequest 0 with
             shut := { s.shut with latch := false, creepList := Vector.replicate 4 false },
             flags := s.flags ||| EventFlag.shutdown.mask })))

/-- R126: REQUEST_BAY_RESTORE is refused with STATE without an origin and with CAUSE_ACTIVE while a
listed cause is active, nothing changing but the reply; accepted, the origin is gone, a RESTORE is
offered, the last frame of the transmit queue then, and every homed tank in LOSS_ALARM is rebased and
BALANCED or SUSPENDED. That every remote member stays, one under a number that has become the own one
too, is the model's choice (log 63). -/
def Obligations.BayRestore : Prop :=
  ∀ s : State, s.LineFree →
    (s.shut.origin = none →
      exec .requestBayRestore s = .next (s.replied 0x16 0 .refused [1])) ∧
    ∀ l, s.shut.origin = some l →
      ((∃ c ∈ l, s.causeActive c = true) →
        exec .requestBayRestore s = .next (s.replied 0x16 0 .refused [9])) ∧
      ((∀ c ∈ l, s.causeActive c = false) → ∃ u : State,
        exec .requestBayRestore s =
          .next ((u.settle (s.atRequest 0)).formReply 0x16 .done []) ∧
        StillFrame (s.atRequest 0) u ∧ u.flagSet .shutdown = true ∧
        u.shut = { s.shut with origin := none } ∧
        (s.link.txQueue.length < 8 ∨ (∃ e ∈ s.link.txQueue, e.sending = false) →
          u.link.txQueue.getLast? = some { frame := .restore, sending := false }) ∧
        ((∀ (t : Tank) (x : HomeUnit), s.home[t] = some x → x.recon ≠ .lossAlarm) → u.holdsBay = true →
          u.link = s.link.offer .restore) ∧
        (u.holdsBay = true ↔ ∃ p : Station, s.shut.sources[p].isSome = true) ∧
        ∀ (t : Tank) (x : HomeUnit), s.home[t] = some x → ∃ y : HomeUnit, u.home[t] = some y ∧
          (x.recon ≠ .lossAlarm → y = x) ∧
          (x.recon = .lossAlarm →
            y.recon = (if x.fault then .suspended else .balanced) ∧ y.lossRun = 0 ∧
            y.throughput = 0 ∧
            y.book = x.gauged.map (fun g => { litres := g.litres, ml := g.ml }) ∧
            u.flagSet .stock = true))

/-- R128: a SPILL frame of another station enters it into the source set, or keeps it there, with
clear counter 0 and the frame's cause list; a RESTORE of it removes it. R131: a set that becomes
non-empty stops the bay, one that becomes empty sets the SHUTDOWN flag. -/
def Obligations.SpillAndRestore : Prop :=
  ∀ (s s' : State) (f : RxFrame) (rest : List RxFrame), s.link.rxQueue = f :: rest →
    s.link.number ≠ some f.station →
    s' = { s with link := { s.link with rxQueue := rest } } →
    (f.kind = 0 → ∃ u : State, exec .spillFrameTaken s = .next (u.settle s') ∧
      u.shut.sources = put s.shut.sources f.station
        (some { clear := 0, causes := some (spillCauses f.payload) }) ∧
      u.shut.origin = s.shut.origin ∧ u.holdsBay = true ∧
      (s.holdsBay = true → u = { s' with shut := u.shut } ∧
        u.shut.bayShutdowns = s.shut.bayShutdowns) ∧
      (s.holdsBay = false → u.BayStopped ∧ u.flagSet .shutdown = true ∧
        u.shut.bayShutdowns = Nat.min (s.shut.bayShutdowns + 1) 65535)) ∧
    (f.kind = 1 →
      (s.shut.sources[f.station] = none →
        exec .restoreFrameTaken s = .next (s'.settle s')) ∧
      (s.shut.sources[f.station].isSome = true → ∃ u : State,
        exec .restoreFrameTaken s = .next (u.settle s') ∧
        u.shut = { s.shut with sources := put s.shut.sources f.station none } ∧
          (u.holdsBay = true → u = { s' with shut := u.shut }) ∧
        (u.holdsBay = false → u.flagSet .shutdown = true)))

/-! ## Bay link -/

/-- R134, R137 to R139, R145, R186: sending. An attempt takes the first entry of the lowest kind in the
queue; it begins only on an IDLE line, and not while WITHDRAWN, with DUPLICATE_STATION, without a
valid station number, with an empty queue or before start-up has ended. A lost arbitration or a
send error leaves the frame in its place, but for a beacon where a newer one has entered the queue
since the attempt began, be it displaced again, and a SPILL or a RESTORE with a SPILL waiting in the queue;
the sixteenth send error in a row withdraws the station for 2 s. A frame sent whole leaves the queue and
the retry count returns to 0. The model's choices: when a line in WAIT is IDLE (log 2); that after a failed
attempt of a SPILL the newer one that waits stands for both, so that no two wait (R143, log 74); that an
attempt in progress when DUPLICATE_STATION is set runs on to its end (log 84); that a line which is IDLE
takes up a number and rate that wait (log 56). `u` is the state before the free places of the queue are
filled again, which only appends to it. -/
def Obligations.Sending : Prop :=
  (∀ u : State, ∃ tail : List TxEntry, u.tidyQueue = { u with link := { u.link with
    txQueue := u.link.txQueue ++ tail, pendPump := u.tidyQueue.link.pendPump,
    pendGauge := u.tidyQueue.link.pendGauge, pendBeacon := u.tidyQueue.link.pendBeacon,
    newBeacon := u.tidyQueue.link.newBeacon } } ∧
    (u.tidyQueue.link.newBeacon = true ↔
      u.link.newBeacon = true ∨ ∃ x ∈ tail, x.frame.kind = 7)) ∧
  (∀ (l : Link) (f : TxFrame), (l.offer f).newBeacon = true ↔ l.newBeacon = true ∨
    f.kind = 7 ∧ (l.waiting 7 = true ∨ l.pendBeacon = none ∧ l.hasPlace = true)) ∧
  (∀ s : State, (s.link.withdrawn = true ∨ s.link.dupStation = true ∨ s.ownNumber = none ∨
      s.link.txQueue = [] ∨ s.link.line ≠ .idle ∨ s.started = false) → exec .frameSendStart s = .next s) ∧
  (∀ (s : State) (m : Station), s.ownNumber = some m → s.link.withdrawn = false →
    s.link.dupStation = false → s.link.line = .idle → s.started = true →
    s.link.txQueue ≠ [] → ∃ (t : State) (e : TxEntry) (pre post : List TxEntry),
      exec .frameSendStart s = .next t ∧ s.link.txQueue = pre ++ e :: post ∧
      (∀ x ∈ pre, e.frame.kind < x.frame.kind) ∧ (∀ x ∈ post, e.frame.kind ≤ x.frame.kind) ∧
      t = { s with link := { s.link with
        txQueue := pre ++ { e with sending := true } :: post, newBeacon := false,
        line := .sending, idleCount := 0, wire := t.link.wire } } ∧
      ((∀ x ∈ s.link.txQueue, x.sending = false) → t.link.wire =
        frameBytes m e.frame.kind
          (e.frame.payload (s.pumpAtSending e.frame) s.link.rejoin))) ∧
  (∀ s : State, s.link.line = .sending → ∃ u v : State,
    exec .arbitrationLost s = .next u.tidyQueue ∧ exec .sendError s = .next v.tidyQueue ∧
    u = { s with link := { s.link with
      txQueue := u.link.txQueue, line := .receiving, idleCount := 0,
      counts := { s.link.counts with
        arbLosses := Nat.min (s.link.counts.arbLosses + 1) 65535 } } } ∧
    v.link.txQueue = u.link.txQueue ∧ v.link.line = .receiving ∧
    v = { s with link := v.link, flags := v.flags } ∧
    v.link.retry = min (s.link.retry + 1) 16 ∧ v.link.pendBeacon = s.link.pendBeacon ∧
    v.link.counts.sendErrors = Nat.min (s.link.counts.sendErrors + 1) 65535 ∧
    (s.link.retry < 15 → v.flags = s.flags ∧ v.link.withdrawn = s.link.withdrawn) ∧
    (15 ≤ s.link.retry → v.flagSet .link = true ∧ v.link.withdrawn = true ∧
      v.link.withdrawT = some 2000 ∧
      v.link.counts.withdrawals = Nat.min (s.link.counts.withdrawals + 1) 65535) ∧
    ∀ pre e post, s.link.txQueue = pre ++ e :: post → e.sending = true →
      (∀ x ∈ pre ++ post, x.sending = false) →
      ((e.frame.kind = 7 ∧ s.link.newBeacon = true) ∨
          (e.frame.kind ≤ 1 ∧ ∃ x ∈ pre ++ post, x.frame.kind = 0) →
        u.link.txQueue = pre ++ post) ∧
      (¬ (e.frame.kind = 7 ∧ s.link.newBeacon = true) →
        ¬ (e.frame.kind ≤ 1 ∧ ∃ x ∈ pre ++ post, x.frame.kind = 0) →
        u.link.txQueue = pre ++ { e with sending := false } :: post)) ∧
  (∀ (s : State) (e : TxEntry), s.link.line = .sending →
    s.link.txQueue.find? (fun x => x.sending) = some e → ∃ u : State,
      exec .frameSent s = .next u.tidyQueue ∧
      u = { s with link := u.link, shut := u.shut, nv := u.nv } ∧ u.link.retry = 0 ∧
      u.link.line ≠ .sending ∧ NumberFollows s.link u.link ∧
      u.link.txQueue = s.link.txQueue.filter (fun x => !x.sending) ∧
      u.link.counts = { s.link.counts with
        framesSent := Nat.min (s.link.counts.framesSent + 1) 65535 } ∧
      (e.frame.kind ≠ 7 → u.link.rejoin = s.link.rejoin) ∧
      (e.frame.kind = 7 → u.link.rejoin = false) ∧
      (e.frame.kind = 0 → u.shut = { s.shut with
        spillsSent := Nat.min (s.shut.spillsSent + 1) 65535 }) ∧
      (e.frame.kind = 1 → u.shut = { s.shut with
        restoresSent := Nat.min (s.shut.restoresSent + 1) 65535 }) ∧
      (1 < e.frame.kind → u.shut = s.shut) ∧ (e.frame.kind ≠ 4 → u.nv = s.nv) ∧
      ∀ n f, e.frame = .summary n f →
        u.nv = { s.nv with unannounced := s.nv.unannounced.filter (fun k => k != n) }) ∧
  ∀ s : State, s.link.withdrawn = true → s.link.withdrawT.isSome = true →
    exec .withdrawalTimerExpiry s = .next { s with link := { s.link with
      withdrawn := false, withdrawT := none, retry := 0, rejoin := true } }

/-- R135, R146, R150: reception. A frame that ends is judged by its end field, its CRC-8, its kind and
its length, in this order; the first failure drops it and raises its count alone. One that passes enters
the receive queue, or at 16 frames raises the overruns count. From a dropped frame to the next IDLE line
no reception starts. A length byte above 32 ends the reception with a format error; the recessive bits
read then are at least those at the end of the length byte, and the identifier's, which no operand
carries, are free (log 82). A line that is IDLE then takes up the number and rate of a reload that waits
for it (R152). A frame taken with the own number is not applied: it is counted and sets
DUPLICATE_STATION, which stops the station as a bay shutdown does. The model's choices: that a frame
which ends while the station sends is not received and what the idle count is after a frame (log 30),
that one which finds the receive queue full does not bar the next start (log 89),
what the next IDLE of a reload is (log 56), and that with the STATION section invalid a frame left in
the queue with the former own number is applied as another station's, here a SPILL (log 85). -/
def Obligations.Receiving : Prop :=
  (∀ (s : State) (id len crc ef : Byte) (p : List Byte),
    (s.sectionValid .station = false ∨ s.link.line = .sending ∨ s.link.dropped = true) →
      exec (.frameReceived id len p crc ef) s = .next s ∧
      exec (.receptionEndedLengthError len) s = .next s) ∧
  (∀ (s : State) (id len crc ef : Byte) (p : List Byte), s.sectionValid .station = true →
    s.link.line ≠ .sending → s.link.dropped = false → ∃ t : State,
      exec (.frameReceived id len p crc ef) s = .next t ∧
      t = { s with link := { s.link with
        rxQueue := t.link.rxQueue, line := t.link.line, idleCount := t.link.idleCount,
        counts := t.link.counts, dropped := t.link.dropped, number := t.link.number,
        rate := t.link.rate, next := t.link.next } } ∧
      NumberFollows s.link t.link ∧
      (t.link.line = .idle ∨ t.link.line = .wait) ∧
      (t.link.line = .idle ↔ 10 ≤ t.link.idleCount) ∧
      (t.link.dropped = true ↔ t.link.line = .wait ∧
        (ef ≠ 0xFF ∨ crc ≠ crc8 (id :: len :: p) ∨ 128 ≤ id.toNat ∨
          lengthOk (id.toNat / 16) p = false)) ∧
      (ef ≠ 0xFF → t.link.rxQueue = s.link.rxQueue ∧ t.link.counts = { s.link.counts with
        formatErrors := Nat.min (s.link.counts.formatErrors + 1) 65535 }) ∧
      (ef = 0xFF → crc ≠ crc8 (id :: len :: p) →
        t.link.rxQueue = s.link.rxQueue ∧ t.link.counts = { s.link.counts with
          crcErrors := Nat.min (s.link.counts.crcErrors + 1) 65535 }) ∧
      (ef = 0xFF → crc = crc8 (id :: len :: p) → 128 ≤ id.toNat →
        t.link.rxQueue = s.link.rxQueue ∧ t.link.counts = { s.link.counts with
          unknownKinds := Nat.min (s.link.counts.unknownKinds + 1) 65535 }) ∧
      (ef = 0xFF → crc = crc8 (id :: len :: p) → id.toNat < 128 →
        (lengthOk (id.toNat / 16) p = false →
          t.link.rxQueue = s.link.rxQueue ∧ t.link.counts = { s.link.counts with
            formatErrors := Nat.min (s.link.counts.formatErrors + 1) 65535 }) ∧
        (lengthOk (id.toNat / 16) p = true → s.link.rxQueue.length < 16 →
          t.link.rxQueue = s.link.rxQueue ++ [{ ident := id, payload := p }] ∧
          t.link.counts = s.link.counts) ∧
        (lengthOk (id.toNat / 16) p = true → 16 ≤ s.link.rxQueue.length →
          t.link.rxQueue = s.link.rxQueue ∧ t.link.counts = { s.link.counts with
            rxOverruns := Nat.min (s.link.counts.rxOverruns + 1) 65535 }))) ∧
  (∀ (s : State) (len : Byte), s.sectionValid .station = true → s.link.line ≠ .sending →
    s.link.dropped = false → ∃ t : State, exec (.receptionEndedLengthError len) s = .next t ∧
      t = { s with link := { s.link with
        line := t.link.line, idleCount := t.link.idleCount, dropped := t.link.dropped,
        number := t.link.number, rate := t.link.rate, next := t.link.next,
        counts := { s.link.counts with
          formatErrors := Nat.min (s.link.counts.formatErrors + 1) 65535 } } } ∧
      NumberFollows s.link t.link ∧
      (t.link.line = .idle ↔ 10 ≤ t.link.idleCount) ∧
      (len ≠ 0xFF → t.link.idleCount = recessiveTail [len]) ∧
      (len = 0xFF → 8 ≤ t.link.idleCount ∧ t.link.idleCount ≤ 16) ∧
      (t.link.line = .idle ∧ t.link.dropped = false ∨
        t.link.line = .wait ∧ t.link.dropped = true)) ∧
  (∀ (s s' : State) (f : RxFrame) (rest : List RxFrame), s.link.rxQueue = f :: rest →
    s.sectionValid .station = false → s.link.number = some f.station → f.kind = 0 →
    s' = { s with link := { s.link with rxQueue := rest } } → ∃ u : State,
      exec .spillFrameTaken s = .next (u.settle s') ∧ u.link.dupStation = s.link.dupStation ∧
      u.link.counts = s.link.counts ∧ u.shut.sources = put s.shut.sources f.station
        (some { clear := 0, causes := some (spillCauses f.payload) })) ∧
  ∀ (s s' : State) (f : RxFrame) (rest : List RxFrame) (c : Instr),
    s.link.rxQueue = f :: rest → s.ownNumber = some f.station →
    (c, f.kind) ∈ [(Instr.spillFrameTaken, 0), (.restoreFrameTaken, 1), (.pumpFrameTaken, 2),
      (.gaugeFrameTaken, 3), (.fillSummaryTaken, 4), (.accountQueryTaken, 5),
      (.accountReplyTaken, 6), (.beaconTaken, 7)] →
    s' = { s with link := { s.link with rxQueue := rest } } → ∃ u : State,
      exec c s = .next (u.settle s') ∧ u.link.dupStation = true ∧
      u.link.counts.ownFrames = Nat.min (s.link.counts.ownFrames + 1) 65535 ∧
      u.link.peers = s.link.peers ∧ u.shut = s.shut ∧ u.accounts = s.accounts ∧
      (s.link.dupStation = true → u = { s' with link := { s'.link with
        counts := { s.link.counts with ownFrames := u.link.counts.ownFrames } } }) ∧
      (s.link.dupStation = false → u.BayStopped ∧ u.flagSet .link = true ∧ u.tag.act = .off ∧
        ((s.visit.state = .querying ∨ s.visit.state = .opened) →
          u.visit.state = .ending ∧ u.visit.lastOutcome = some .duplicateStation))

/-- R67, R94, R104, R129, R148: a beacon of another station is entered into its peer entry, which shows
an epoch change against the epoch held; its draw entries are taken one by one (`takeTotal`, of which
the statement on draws says what it does); the spill flag moves its membership of the source set;
its demand mask its membership of the demand sets; a lower station with the visit's machine ends the
visit. The beacon of a SILENT station ends the UNCERTAIN mark of the tanks homed there, and HOME_SILENT
leaves their held fills, which resume when it was their only cause (R33, R34, R97). A pump view follows
the state of its own controller (R113); that of a tank without one here stands as it was (R114). That
with the STATION section invalid the former own number is another station's too is the model's choice
(log 85). -/
def Obligations.BeaconTaken : Prop :=
  ∀ (s s' : State) (f : RxFrame) (rest : List RxFrame) (b : BeaconFields) (e : Peer)
    (p : Station) (changed : Bool),
    s.link.rxQueue = f :: rest → f.kind = 7 → p = f.station → s.ownNumber ≠ some p →
    s' = { s with link := { s.link with rxQueue := rest } } → b = beaconOf f.payload →
    e = s.link.peers[p] → (changed = true ↔ e.heard = true ∧ e.epoch ≠ some b.epoch) →
    ∃ u : State, exec .beaconTaken s = .next (u.settle s') ∧
      u.link.peers = put s.link.peers p
        { heard := true, epoch := some b.epoch, lastAt := some s.clock, silenceT := some 1500,
          fields := some b, silent := false, silences := e.silences,
          epochChanges := if changed then Nat.min (e.epochChanges + 1) 65535
            else e.epochChanges,
          rejoins := if b.rejoined then Nat.min (e.rejoins + 1) 65535 else e.rejoins } ∧
      (b.rejoined = true → u.flagSet .link = true) ∧
      (∀ t : Tank, s.cfg.homeOf[t] = some p → u.homeSilent t = false) ∧
      (∀ (h : Hose) (t : Tank), (s.fill h).tank = some t → (s.fill h).state = .held →
        s.cfg.homeOf[t] = some p → s.home[t] = none → s.pumps[t] = none →
        (b.spill = false ∨ s.holdsBay = true) →
        (e.silent = false → u.fill h = s.fill h) ∧
        (e.silent = true →
          (u.fill h).holds = { (s.fill h).holds with homeSilent := false } ∧
          (u.fill h).net = (s.fill h).net ∧ (u.fill h).seq = (s.fill h).seq ∧
          ((u.fill h).holds.isEmpty = false →
            u.fill h = { s.fill h with holds := (u.fill h).holds }) ∧
          ((u.fill h).holds.isEmpty = true →
            (u.fill h).holdT = none ∧ (u.fill h).tagLossT = none ∧
            (((s.hoseCfg h).slowDown.toNat : Int) <
                ((s.fill h).preset.getD 0 : Int) - ((s.fill h).net : Int) →
              (u.fill h).state = .flowing ∧ (u.fill h).rampTarget = s.fullCommand h) ∧
            (((s.fill h).preset.getD 0 : Int) - ((s.fill h).net : Int) ≤
                ((s.hoseCfg h).slowDown.toNat : Int) →
              (u.fill h).state = .slowing ∧ (u.fill h).rampTarget = s.slowCommand h)))) ∧
      (∃ w v : State, w = { s' with link := w.link, hoses := w.hoses, flags := w.flags } ∧
        v = b.draws.foldl (fun a d =>
          match tankOf d.1 with
          | none => a
          | some t => a.takeTotal p t d.2 changed) w ∧
        u.home = v.home ∧
        ∀ t : Tank, u.views[t] = { v.views[t] with pump := u.views[t].pump }) ∧
      u.shut.origin = s.shut.origin ∧ u.shut.latch = s.shut.latch ∧
      u.shut.sources = put s.shut.sources p
        (match s.shut.sources[p] with
         | none => if b.spill then some { clear := 0, causes := none } else none
         | some x => if b.spill then some { x with clear := 0 }
           else if x.clear = 0 then some { x with clear := 1 } else none) ∧
      (s.holdsBay = false → b.spill = true → u.BayStopped ∧ u.flagSet .shutdown = true) ∧
      (∀ (t : Tank) (q : Pump), s.pumps[t] = some q → ∃ q' : Pump, u.pumps[t] = some q' ∧
        q'.own = q.own ∧ (∀ k : Station, k ≠ p → q'.remote[k] = q.remote[k]) ∧
        (b.demand.getLsbD t.val = true → changed = false → q'.remote[p] = some 1200) ∧
        (b.demand.getLsbD t.val = false ∨ changed = true → q'.remote[p] = none) ∧
        (s.views[t].pump = .known q.state q.reason →
          u.views[t].pump = .known q'.state q'.reason)) ∧
      (∀ t : Tank, s.pumps[t] = none →
        u.pumps[t] = none ∧ u.views[t].pump = s.views[t].pump) ∧
      u.visit.machineId = s.visit.machineId ∧
      (∀ own, s.ownNumber = some own → p.val < own.val →
        s.visit.machineId = some b.machineId →
        (s.visit.state = .querying ∨ s.visit.state = .opened) →
        u.visit.state = .ending ∧ u.visit.lastOutcome = some .duplicateTag ∧
        u.flagSet .visit = true) ∧
      ((∀ own, s.ownNumber = some own → own.val ≤ p.val) ∨
          s.visit.machineId ≠ some b.machineId → u.visit = s.visit)

/-- R33, R97, R105, R149: a silence timer makes its entry SILENT: the LINK flag, the pump views of the
tanks homed there UNKNOWN, their dispensing fills HELD with HOME_SILENT, the station out of every
demand set and in the source set as before; the own entry never falls SILENT. R96, R140, R141, R186: the
beacon period and the end of start-up form a beacon, which takes the own totals and restarts the
500 ms. It carries the states, flags, machine id and mask as they stand and, with a valid HOSES section,
one draw entry for each distinct tank of the four hoses, ascending: its number and its draw total, which
is the persisted one with the live nets, creeps and closed creeps; with an invalid one none. R143: it
replaces the beacon that waits or is pending, else enters a free place, else is pending; with the STATION
section invalid it is not offered. The model's choice (log 6): the own last totals are the entries of
the own number, and stand apart only while the station has had no number. The codes of the visit states
count NONE as 1 (log 14). -/
def Obligations.SilenceAndBeacons : Prop :=
  (∀ (s : State) (p : Station), s.link.peers[p].heard = true →
    s.link.peers[p].silenceT.isSome = true → s.link.number ≠ some p → s.PumpsHomed →
    ∃ u : State,
      exec (.silenceTimerExpiry p) s = .next (u.settle s) ∧ StillFrame s u ∧
      u.link.peers = put s.link.peers p { s.link.peers[p] with
        silent := true, silenceT := none,
        silences := Nat.min (s.link.peers[p].silences + 1) 65535 } ∧
      u.flagSet .link = true ∧ u.shut = s.shut ∧ u.visit = s.visit ∧
      (∀ (t : Tank) (q : Pump), u.pumps[t] = some q → q.remote[p] = none) ∧
      ∀ t : Tank, s.cfg.homeOf[t] = some p → s.home[t] = none →
        u.views[t] = { s.views[t] with pump := .unknown } ∧ u.homeSilent t = true ∧
        ∀ h : Hose, (s.fill h).tank = some t → (s.fill h).dispensing = true →
          (u.fill h).state = .held ∧ (u.fill h).holds.homeSilent = true ∧
          (u.fill h).holdT = some 180000 ∧
          ((u.fill h).holds.pumpLost = true ↔
            (s.fill h).holds.pumpLost = true ∨ s.views[t].pump.isRunning = true)) ∧
  (∀ (s : State) (p : Station), s.link.number = some p →
    exec (.silenceTimerExpiry p) s = .next s) ∧
  ∀ s : State,
    (s.started = true → s.link.beaconT.isSome = true → ∃ u : State,
      exec .beaconPeriodExpiry s = .next (u.settle u) ∧ u = s.formBeacon) ∧
    (s.started = false → exec .beaconPeriodExpiry s = .next s) ∧
    (s.phase = .beacon → ∃ u : State, exec .startUpFirstBeacon s = .next u.tidyQueue ∧
      u = { s.formBeacon with
        phase := .running, firstBeaconT := none, flags := u.flags } ∧
      u.flags = s.formBeacon.flags ||| EventFlag.started.mask) ∧
    ∃ (b : BeaconFields) (u : State), u = s.formBeacon ∧ StillFrame s u ∧
      b.lane = (if s.laneClosed then 2 else 1) ∧ b.spill = s.shut.origin.isSome ∧
      b.laneShut = s.shut.latch ∧ b.configFault = s.cfg.fault ∧ b.epoch = s.link.epoch ∧
      b.machineId = (if s.visit.state = .none then 0 else s.visit.machineId.getD 0) ∧
      (∀ t : Tank, b.demand.getLsbD t.val =
        (s.demandsTank t && !s.shutdownStands && !s.laneClosed)) ∧
      b.visit = (match s.visit.state with
        | .none => 1 | .identifying => 2 | .querying => 3 | .opened => 4 | .ending => 5) ∧
      (s.sectionValid .hoses = false → b.draws = []) ∧
      (s.sectionValid .hoses = true → b.draws.length ≤ 4 ∧
        b.draws.Pairwise (fun x y => x.1.toNat < y.1.toNat) ∧
        ∀ (n : Byte) (x : U32), (n, x) ∈ b.draws ↔ ∃ (t : Tank) (h : Hose),
          n.toNat = t.val + 1 ∧ s.cfg.data.hoses[h].tank = n ∧
          x = s.nv.totals[t] + BitVec.ofNat 32 (((indices 4).map fun k =>
            (if (s.fill k).tank = some t then (s.fill k).liveNet else 0) + s.openNet t k +
            closedNet t (s.meter k).jobCreep + closedNet t (s.meter k).waitCreep).sum)) ∧
      u.link.ownBeacon = some b ∧ u.link.beaconT = some 500 ∧
      (s.link.number = none →
        ∀ t ∈ s.drawnTanks, u.views[t].ownTotal = some (s.drawTotal t)) ∧
      (∀ p, s.link.number = some p →
        (∀ t ∈ s.drawnTanks, u.views[t].lastTotals[p] = some (s.drawTotal t)) ∧
        ∃ (changed : Bool) (v : State),
          (changed = true ↔ s.link.peers[p].heard = true ∧
            s.link.peers[p].epoch ≠ some s.link.epoch) ∧
          v = s.drawnTanks.foldl (fun a t => a.takeTotal p t (s.drawTotal t) changed) s ∧
          u.views = v.views ∧ u.home = v.home ∧ u.pumps = v.pumps) ∧
      (∀ t : Tank, t ∉ s.drawnTanks → u.views[t] = s.views[t]) ∧
      ∃ v : State, v = s.drawnTanks.foldl (fun a t => a.takeOwnTotal t (s.drawTotal t)) s ∧
        v.link.unsentBeacons = s.link.unsentBeacons ∧
        (s.drawnTanks = [] → v = s) ∧
        u = { v with link := { v.link with
          ownBeacon := some b, beaconT := some 500, txQueue := u.link.txQueue,
          pendBeacon := u.link.pendBeacon, newBeacon := u.link.newBeacon } } ∧
        (s.sectionValid .station = false →
          u.link.txQueue = v.link.txQueue ∧ u.link.pendBeacon = v.link.pendBeacon) ∧
        (s.sectionValid .station = true →
          u.link.unsentBeacons = Nat.max 1 s.link.unsentBeacons ∧
          (v.link.unsentBeacons ≠ 0 →
            u.link.txQueue = v.link.txQueue.map (fun e =>
              if e.sending = false ∧ e.frame.kind = 7 then { e with frame := .beacon b } else e) ∧
            u.link.pendBeacon = v.link.pendBeacon.map fun _ => b) ∧
          (v.link.unsentBeacons = 0 → v.link.txQueue.length < 8 →
            u.link.txQueue = v.link.txQueue ++ [{ frame := .beacon b, sending := false }] ∧
            u.link.pendBeacon = none) ∧
          (v.link.unsentBeacons = 0 → 8 ≤ v.link.txQueue.length →
            u.link.txQueue = v.link.txQueue ∧ u.link.pendBeacon = some b))

/-! ## Store and record log -/

/-- R17, R43, R157, R160, R161: a record write that took a slot completes: the slot holds its record,
totalled and UNCONSUMED, with the sequence the job took; the tank word has the net and the sequence, but
for a RECEIPT; the checkpoint of its hose is clear; every other slot and word stands. The fill goes to
IDLE with its end cause as outcome and its reservation is released. Where the working total is the
stored one, no draw total changes, by a CREEP record as little (R17). With the INTERRUPTED record of a
checkpoint written, recovery goes on to the hoses still to do (R166). One without a slot changes nothing
in the store: a creep waits, deferred, and after an INTERRUPTED record recovery goes on, its checkpoint
left as it is, the model's choice (log 78). A creep whose log has filled since its write began is
deferred as well: its turn lasts to the completion, an inference (log 52). That the store takes all
words of the job at its completion, the tank word with the net among them, is the model's choice (log
16); the spec writes them one by one. So is, of the checkpoints that recovery goes on to, that one is
cleared without a job (log 38). -/
def Obligations.RecordWritten : Prop :=
  (∀ (s : State) (o : RecordOwner) (r : Record) (js : List Job) (n k : Nat) (q : U32),
    s.nv.queue = .record o r :: js → s.nv.run = some { slot := some n, seq := q, reads := k } →
    (∀ h, o = .creep h → s.unconsumed + s.nv.reservations < 1024) →
    ∃ u : State, exec .recordWriteComplete s = .next (u.settle s) ∧
      lookupAt n u.store.log =
        some { record := { r with seq := q }, totalled := true, consumed := false } ∧
      (∀ k, k ≠ n → lookupAt k u.store.log = lookupAt k s.store.log) ∧
      (r.kind = .receipt → u.store.totals = s.store.totals) ∧
      (r.kind ≠ .receipt → u.store.totals = put s.store.totals r.tank
        { total := s.store.totals[r.tank].total + BitVec.ofNat 32 r.net, applied := q }) ∧
      u.store.config = s.store.config ∧ u.store.locks = s.store.locks ∧
      u.store.epoch = s.store.epoch ∧ u.store.highWater = s.store.highWater ∧
      u.store.highWaterBefore = s.store.highWaterBefore ∧
      (∀ h, o = .fill h →
        u.store.copyA = put s.store.copyA h none ∧ u.store.copyB = put s.store.copyB h none ∧
        (u.fill h).state = .idle ∧
        (u.fill h).lastOutcome = (s.fill h).endCause.map FillOutcome.ended ∧
        u.flagSet .fillClosed = true ∧ u.nv.reservations = s.nv.reservations - 1 ∧
        (n ∈ u.nv.unannounced ↔ r.kind = .fill) ∧
        u.nv.queue = js ++ s.nv.held.take 1 ∧ u.nv.held = s.nv.held.tail ∧
        (r.kind ≠ .receipt → (s.fill h).state = .closing → (s.fill h).tank = some r.tank →
          (s.fill h).net = r.net → s.nv.totals[r.tank] = s.store.totals[r.tank].total →
          ∀ t : Tank, u.drawTotal t = s.drawTotal t)) ∧
      (∀ h, o = .creep h → u.store.copyA = s.store.copyA ∧ u.store.copyB = s.store.copyB ∧
        (u.meter h).jobCreep = none ∧ u.nv.reservations = s.nv.reservations ∧
        (∀ k : Hose, u.fill k = s.fill k) ∧
        (∀ c, (s.meter h).jobCreep = some c → c.tank = r.tank → c.net = r.net →
          r.kind = .creep → s.nv.totals[r.tank] = s.store.totals[r.tank].total →
          ∀ t : Tank, u.drawTotal t = s.drawTotal t)) ∧
      (o = .receipt → u.store.copyA = s.store.copyA ∧ u.store.copyB = s.store.copyB ∧
        u.nv.reservations = s.nv.reservations - 1 ∧ u.hoses = s.hoses) ∧
      (∀ h, o = .interrupted h → u.store.copyA[h] = none ∧ u.store.copyB[h] = none ∧
        (r.kind = .fill → n ∈ u.nv.unannounced) ∧
        ∀ rest, js = [] → s.nv.held = [] → s.store.errs = [] → s.nv.recovery = .record rest →
          ∃ v : State, v = { s with
              store := { s.store with
                log := u.store.log, totals := u.store.totals,
                copyA := put s.store.copyA h none, copyB := put s.store.copyB h none },
              nv := { s.nv with
                queue := [], run := none, totals := v.nv.totals,
                unannounced := v.nv.unannounced },
              flags := v.flags } ∧
            (r.kind ≠ .receipt → v.nv.totals[r.tank] = u.store.totals[r.tank].total) ∧
            Recovers v u rest)) ∧
  (∀ (s : State) (h : Hose) (r : Record) (q : U32) (k : Nat) (rest : List Hose),
    s.nv.queue = [.record (.interrupted h) r] → s.nv.held = [] → s.store.errs = [] →
    s.nv.run = some { slot := none, seq := q, reads := k } → s.nv.recovery = .record rest →
    ∃ u : State, exec .recordWriteComplete s = .next (u.settle s) ∧
      Recovers { s with nv := { s.nv with queue := [], run := none } } u rest) ∧
  ∀ (s : State) (h : Hose) (r : Record) (js : List Job) (m : Option Nat) (q : U32) (k : Nat)
    (c : ClosedCreep), s.nv.queue = .record (.creep h) r :: js →
    s.nv.run = some { slot := m, seq := q, reads := k } →
    (m = none ∨ 1024 ≤ s.unconsumed + s.nv.reservations) →
    (s.meter h).jobCreep = some c → ∃ u : State,
      exec .recordWriteComplete s = .next (u.settle s) ∧ u.store = s.store ∧
      (u.meter h).jobCreep = none ∧
      ((s.meter h).waitCreep = none →
        (u.meter h).waitCreep = some { c with deferred := true }) ∧
      ∀ t : Tank, u.nv.totals[t] = s.nv.totals[t]

/-- R26, R44, R156: a checkpoint write completes: it is the newer copy of its hose, the copy that was
newer stands, an entry checkpoint raises the high-water to its sequence and releases the valve of
its fill; that the high-water never falls, so that it is the larger of its word and the sequence, is the
model's reading (log 37). R165: an epoch update, and a tank word update with the totalled marker of the
record that it finishes (the marker alone, where the tank word shows the record's sequence), are in the
store; the log's untotalled record, and then each tank word in error, has its update queued and waited
for (R165). R166: when the log is whole and no word in error, the epoch update goes on to the checkpoints in
hose order: one whose record the log holds is cleared, the first whose record it does not hold has its
INTERRUPTED record queued and waited for; with none, recovery ends, and the bay inputs active since the
reset are taken up with their causes (R132). The next sequence number is one above the largest of the
high-water, the sequences in the log and those of the newer copies (R165), where no entry checkpoint was
cut short (of one that was, the statement on resets; log 45). That a checkpoint is cleared without a job is the model's
reading (log 38); which inputs count as active since the reset is its choice (log 62). -/
def Obligations.CheckpointAndTotals : Prop :=
  (∀ st : Store, st.highWaterBefore = none → st.highWater ≠ 0xFFFFFFFF →
    (∀ e ∈ st.log, e.2.record.seq ≠ 0xFFFFFFFF) →
    (∀ h b x, st.newerCopy h = some (b, x) → x.data.seq ≠ 0xFFFFFFFF) →
    st.highWater.toNat < st.nextSequence.toNat ∧
    (∀ e ∈ st.log, e.2.record.seq.toNat < st.nextSequence.toNat) ∧
    (∀ h b x, st.newerCopy h = some (b, x) → x.data.seq.toNat < st.nextSequence.toNat) ∧
    (st.nextSequence.toNat = st.highWater.toNat + 1 ∨
      (∃ e ∈ st.log, st.nextSequence.toNat = e.2.record.seq.toNat + 1) ∨
      ∃ h b x, st.newerCopy h = some (b, x) ∧
        st.nextSequence.toNat = x.data.seq.toNat + 1)) ∧
  (∀ (s : State) (h : Hose) (entry : Bool) (c : Checkpoint) (js : List Job),
    s.nv.queue = .checkpoint h entry c :: js → ∃ (u : State) (b : Bool) (w : Nat),
      exec .checkpointWriteComplete s = .next u ∧
      u.store.newerCopy h = some (b, { data := c, complete := true, writes := w }) ∧
      (∀ k : Hose, k ≠ h → u.store.newerCopy k = s.store.newerCopy k) ∧
      (∀ x y, s.store.newerCopy h = some (x, y) → b = !x ∧ w = y.writes + 1 ∧
        (x = false → u.store.copyA[h] = s.store.copyA[h]) ∧
        (x = true → u.store.copyB[h] = s.store.copyB[h])) ∧
      u.store.log = s.store.log ∧ u.store.totals = s.store.totals ∧
      u.store.config = s.store.config ∧ u.store.locks = s.store.locks ∧
      (entry = false → u.store.highWater = s.store.highWater ∧
        u.store.highWaterBefore = s.store.highWaterBefore ∧ u.hoses = s.hoses) ∧
      (entry = true → u.store.highWater.toNat = max s.store.highWater.toNat c.seq.toNat ∧
        u.store.highWaterBefore = none ∧
        (∀ k : Hose, k ≠ h → u.hoses[k] = s.hoses[k]) ∧
        ((s.fill h).seq = some c.seq → (s.fill h).state ≠ .idle →
          u.fill h = { s.fill h with released := true }) ∧
        ((s.fill h).seq ≠ some c.seq → u.fill h = s.fill h))) ∧
  (∀ (s : State) (e : U16) (js : List Job), s.nv.queue = .epochUpdate e :: js → ∃ u : State,
    exec .persistedTotalsUpdateComplete s = .next (u.settle s) ∧ u.store.epoch = e ∧
    u.link.epoch = e ∧ u.store.log = s.store.log ∧ u.store.totals = s.store.totals ∧
    u.store.config = s.store.config ∧ u.store.locks = s.store.locks ∧
    (js = [] → s.nv.held = [] → s.store.errs = [] →
      (∀ x ∈ s.store.log, x.2.totalled = true) → ∃ v : State,
      v = { s with
        store := { s.store with epoch := e }, link := { s.link with epoch := e },
        nv := { s.nv with
          queue := [], run := none, totals := v.nv.totals, nextSeq := s.store.nextSequence } } ∧
      (∀ t : Tank, v.nv.totals[t] = s.store.totals[t].total) ∧ Recovers v u [0, 1, 2, 3]) ∧
    (js = [] → s.nv.held = [] →
      (∀ n x, (n, x) ∈ s.store.log → x.totalled = false →
        (∀ y ∈ s.store.log, y.2.totalled = false → y = (n, x)) →
        u.store = { s.store with epoch := e, errs := u.store.errs } ∧ u.phase = s.phase ∧
        u.nv.queue = [.totalUpdate x.record.tank
          (if s.store.totals[x.record.tank].applied = x.record.seq then none
           else some
             { total := s.store.totals[x.record.tank].total + BitVec.ofNat 32 x.record.net,
               applied := x.record.seq }) (some n)]) ∧
      ((∀ x ∈ s.store.log, x.2.totalled = true) → ∀ t : Tank,
        (∃ x ∈ s.store.errs, x.area = .total t ∧ x.double = true) →
        (∀ k : Tank, k.val < t.val → ∀ x ∈ s.store.errs, x.area = .total k →
          x.double = false) →
        u.store = { s.store with epoch := e, errs := u.store.errs } ∧ u.phase = s.phase ∧
        u.nv.queue = [.totalUpdate t (some s.store.totals[t]) none] ∧
        u.flagSet .nv = true))) ∧
  ∀ (s : State) (t : Tank) (w : Option TankWord) (slot : Option Nat) (js : List Job),
    s.nv.queue = .totalUpdate t w slot :: js → ∃ u : State,
      exec .persistedTotalsUpdateComplete s = .next (u.settle s) ∧
      (w = none → u.store.totals = s.store.totals) ∧
      (∀ x, w = some x → u.store.totals = put s.store.totals t x) ∧ u.store.epoch = s.store.epoch ∧
      u.store.config = s.store.config ∧ u.store.locks = s.store.locks ∧
      (∀ k, lookupAt k u.store.log = (lookupAt k s.store.log).map fun x =>
        if slot = some k then { x with totalled := true } else x) ∧
      (js = [] → s.nv.held = [] →
        (∀ x ∈ s.store.log, x.2.totalled = false → slot = some x.1) →
        (∀ k rest, s.nv.recovery = .totals (k :: rest) →
          u.nv.queue = [.totalUpdate k (some u.store.totals[k]) none] ∧
          u.nv.recovery = .totals rest) ∧
        (s.nv.recovery = .totals [] → s.store.errs = [] → ∃ v : State,
          v = { s with
            store := { s.store with log := v.store.log, totals := u.store.totals },
            nv := { s.nv with
              queue := [], run := none, totals := v.nv.totals,
              nextSeq := v.store.nextSequence } } ∧
          v.store.log = u.store.log ∧
          (∀ k : Tank, v.nv.totals[k] = u.store.totals[k].total) ∧
          Recovers v u [0, 1, 2, 3]))

/-- R163, R164: CONSUME_RECORDS: BUSY and not taken at 10 jobs; DONE with 0 when it names no record;
else the request executes and one job is queued for the UNCONSUMED, announced records at or below
its sequence, which are CONSUMED when it completes; the reply is formed then. It carries the number
consumed and the number of UNCONSUMED records at or below the sequence that are unannounced.
CLEAR_NV_COUNTERS clears the two counts and captures alone. The model's choices: the two bytes of each
count in the reply (log 14); the number left unconsumed is that at the acceptance of the request
(log 87). -/
def Obligations.Consuming : Prop :=
  (∀ (s : State) (q : U32), s.LineFree →
    (10 ≤ s.nv.queue.length →
      exec (.consumeRecords q) s = .next (s.turnedAway 0x10 4 .busy)) ∧
    (s.nv.queue.length < 10 →
      ((∀ n e, (n, e) ∈ s.store.log → e.consumed = false → e.record.seq.toNat ≤ q.toNat →
          n ∈ s.nv.unannounced) →
        exec (.consumeRecords q) s =
          .next (s.replied 0x10 4 .done
            ([(0 : Byte), 0] ++ beBytes 2 (s.unconsumedBelow q false).length))) ∧
      ((∃ n e, (n, e) ∈ s.store.log ∧ e.consumed = false ∧ e.record.seq.toNat ≤ q.toNat ∧
          n ∉ s.nv.unannounced) → ∃ (t : State) (slots : List Nat),
        exec (.consumeRecords q) s = .next t ∧ t.term.engine = some 0x10 ∧
        t.term.slot = none ∧ t.term.latch = false ∧ t.term.key = false ∧
        t.store = s.store ∧ slots.length = (s.unconsumedBelow q true).length ∧
        t.nv.queue = s.nv.queue ++ [.consume slots (s.unconsumedBelow q false).length] ∧
        t = { s with term := t.term, nv := { s.nv with queue := t.nv.queue } } ∧
        ∀ n, n ∈ slots ↔ ∃ e, (n, e) ∈ s.store.log ∧ e.consumed = false ∧
          e.record.seq.toNat ≤ q.toNat ∧ n ∉ s.nv.unannounced))) ∧
  (∀ (s : State) (slots : List Nat) (left : Nat) (js : List Job),
    s.nv.queue = .consume slots left :: js → ∃ u : State,
      exec .consumeMarksComplete s = .next (u.settle s) ∧ u.term.engine = none ∧
      (∀ k, lookupAt k u.store.log = (lookupAt k s.store.log).map fun x =>
        if k ∈ slots then { x with consumed := true } else x) ∧
      u.store = { s.store with log := u.store.log } ∧ u.hoses = s.hoses ∧
      u.nv.queue = js ++ s.nv.held.take 1 ∧ u.nv.reservations = s.nv.reservations ∧
      (∀ c, s.term.engine = some c → u.term.ready = true ∧ u.term.slot =
        some { code := c, status := .done,
               items := beBytes 2 slots.length ++ beBytes 2 left })) ∧
  ∀ s : State, s.LineFree → exec .clearNvCounters s =
    .next ({ s with nv := { s.nv with sc := 0, dc := 0, scCap := none, dcCap := none } }.replied
      0x20 0 .done [])

/-! ## Configuration and calibration -/

/-- R172 to R174, R179: commissioning. CONFIG_WRITE_ENABLE sets the latch. CONFIG_WRITE and
CONFIG_LOCK are refused by the first check that fails, or answered BUSY and not taken at 10 jobs;
accepted, they queue their job with the latch standing and execute until it completes: the bytes
are then in the store, or the section is locked, the latch is clear and the reply DONE. The lock word is
read with the check: an error in it is counted (`WordsRead`, R164), and with a double one the section
counts as locked (R174). That a CONFIG_WRITE of no byte or of more than 16 is a bad frame is the model's
choice (log 31), as are the sizes of STATION and TANKS (log 79). -/
def Obligations.Commissioning : Prop :=
  (∀ s : State, s.LineFree → ∃ t : State, exec .configWriteEnable s = .next t ∧
    t = { s.replied 0x21 0 .done [] with term := { t.term with latch := t.term.latch } } ∧
    t.term = { (s.replied 0x21 0 .done []).term with latch := true }) ∧
  (∀ (s : State) (b : Byte) (off : U16) (data : List Byte) (sec : Section), s.LineFree →
    sectionOf b = some sec →
    (1 ≤ data.length → data.length ≤ 16 →
      (sectionSize sec < off.toNat + data.length →
        exec (.configWrite b off data) s =
          .next (s.replied 0x22 (3 + data.length) .refused [12])) ∧
      (off.toNat + data.length ≤ sectionSize sec →
        (s.term.latch = false → exec (.configWrite b off data) s =
          .next (s.replied 0x22 (3 + data.length) .refused [1])) ∧
        (s.term.latch = true → ∃ m : State, WordsRead s m (fun e => e.area == .lock sec) ∧
          (s.store.CountsLocked sec → exec (.configWrite b off data) s =
            .next (m.replied 0x22 (3 + data.length) .refused [7])) ∧
          (¬ s.store.CountsLocked sec →
            (10 ≤ s.nv.queue.length → exec (.configWrite b off data) s =
              .next (s.turnedAway 0x22 (3 + data.length) .busy)) ∧
            (s.nv.queue.length < 10 → ∃ t : State,
              exec (.configWrite b off data) s = .next t ∧ t.term.engine = some 0x22 ∧
              t.term.slot = none ∧ t.term.latch = true ∧ t.term.key = false ∧
              t = { m with term := t.term, nv := { m.nv with
                queue := s.nv.queue ++ [.configWrite sec off.toNat data] } }))))) ∧
    ((data.length = 0 ∨ 16 < data.length) → exec (.configWrite b off data) s =
      .next (s.turnedAway 0x22 (3 + data.length) .badFrame)) ∧
    (s.term.latch = false →
      exec (.configLock b) s = .next (s.replied 0x24 1 .refused [1])) ∧
    (s.term.latch = true → ∃ m : State, WordsRead s m (fun e => e.area == .lock sec) ∧
      (s.store.CountsLocked sec →
        exec (.configLock b) s = .next (m.replied 0x24 1 .refused [7])) ∧
      (¬ s.store.CountsLocked sec →
        (10 ≤ s.nv.queue.length →
          exec (.configLock b) s = .next (s.turnedAway 0x24 1 .busy)) ∧
        (s.nv.queue.length < 10 → ∃ t : State,
          exec (.configLock b) s = .next t ∧ t.term.engine = some 0x24 ∧ t.term.slot = none ∧
          t.term.latch = true ∧ t.term.key = false ∧
          t = { m with term := t.term, nv := { m.nv with
            queue := s.nv.queue ++ [.lock sec] } })))) ∧
  (∀ (s : State) (b : Byte) (off : U16) (data : List Byte), s.LineFree → sectionOf b = none →
    exec (.configLock b) s = .next (s.replied 0x24 1 .refused [12]) ∧
    (1 ≤ data.length → data.length ≤ 16 → exec (.configWrite b off data) s =
      .next (s.replied 0x22 (3 + data.length) .refused [12]))) ∧
  (∀ (s : State) (sec : Section) (off : Nat) (data : List Byte) (js : List Job),
    s.nv.queue = .configWrite sec off data :: js → ∃ t : State,
      exec .configWriteComplete s = .next t ∧
      t.store = { s.store with
        config := writeSection s.store.config sec off data, errs := t.store.errs } ∧
      t.term.latch = false ∧ t.cfg = s.cfg ∧ t.hoses = s.hoses ∧ t.term.engine = none ∧
      (∀ c, s.term.engine = some c →
        t.term.slot = some { code := c, status := .done, items := [] } ∧ t.term.ready = true)) ∧
  ∀ (s : State) (sec : Section) (js : List Job), s.nv.queue = .lock sec :: js → ∃ t : State,
    exec .lockComplete s = .next t ∧
    t.store = { s.store with
      locks := put s.store.locks sec.index true, errs := t.store.errs } ∧
    t.term.latch = false ∧ t.cfg = s.cfg ∧ t.hoses = s.hoses ∧ t.term.engine = none ∧
    (∀ c, s.term.engine = some c →
      t.term.slot = some { code := c, status := .done, items := [] } ∧ t.term.ready = true)

/-- R4, R175: CAL_KEY sets the key. CAL_OVERRIDE is refused by the first check that fails, the key
cleared; accepted, the override of its hose is set with its parity, Keff recomputed for the band in
use and answered. The four bytes of Keff in the reply are the model's choice (log 14). -/
def Obligations.CalOverride : Prop :=
  ∀ s : State, s.LineFree →
    (∃ t : State, exec .calKey s = .next t ∧
      t = { s.replied 0x26 0 .done [] with term := t.term } ∧
      t.term = { (s.replied 0x26 0 .done []).term with key := true }) ∧
    ∀ (b : Byte) (k c0 c1 c2 c3 : U32),
      (s.term.key = false →
        exec (.calOverride b k c0 c1 c2 c3) s = .next (s.replied 0x27 21 .refused [1])) ∧
      (s.term.key = true →
        (4 ≤ b.toNat ∨ k.toNat < 1000 ∨ 9999999 < k.toNat ∨
            (∃ c ∈ [c0, c1, c2, c3], c.toInt < -50000 ∨ 50000 < c.toInt) →
          exec (.calOverride b k c0 c1 c2 c3) s = .next (s.replied 0x27 21 .refused [12])) ∧
        (∀ h : Hose, b.toNat = h.val → 1000 ≤ k.toNat → k.toNat ≤ 9999999 →
          (∀ c ∈ [c0, c1, c2, c3], -50000 ≤ c.toInt ∧ c.toInt ≤ 50000) →
          (¬ s.MetersOperate → exec (.calOverride b k c0 c1 c2 c3) s =
            .next (s.replied 0x27 21 .refused [10])) ∧
          (s.MetersOperate → (s.fill h).state ≠ .idle →
            exec (.calOverride b k c0 c1 c2 c3) s =
              .next (s.replied 0x27 21 .refused [1])) ∧
          (s.MetersOperate → (s.fill h).state = .idle → ∃ (o : Override) (x : Nat),
            exec (.calOverride b k c0 c1 c2 c3) s = .next ({ s with hoses := (put s.hoses h
                { s.hoses[h] with
                  override := some o, meter := { (s.meter h) with keff := x } }) }.replied
              0x27 21 .done (beBytes 4 x)) ∧
            o = { k1000 := k, c0 := c0, c1 := c1, c2 := c2, c3 := c3,
                  parity := overrideParity k c0 c1 c2 c3 } ∧
            x = (((k.toNat : Int) * (1000000 +
              (#v[c0, c1, c2, c3])[(s.meter h).band].toInt) + 500000) / 1000000).toNat)))

/-- R176: CAL_REVERT is refused with RANGE for a hose outside 0..3, with STATE when the hose is not
in prover mode or its fill beyond IDLE; accepted, the hose has no override and the Keff of its
working values for the band in use. A load discards every override. That the Keff is a free value of
its range while the HOSES section is invalid is the model's choice (log 46). -/
def Obligations.CalRevert : Prop :=
  (∀ (s : State) (b : Byte), s.LineFree →
    (4 ≤ b.toNat → exec (.calRevert b) s = .next (s.replied 0x28 1 .refused [12])) ∧
    ∀ h : Hose, b.toNat = h.val →
      (s.hoses[h].override = none ∨ (s.fill h).state ≠ .idle →
        exec (.calRevert b) s = .next (s.replied 0x28 1 .refused [1])) ∧
      (s.hoses[h].override.isSome = true → (s.fill h).state = .idle → ∃ x : Nat,
        exec (.calRevert b) s = .next ({ s with hoses := (put s.hoses h
            { s.hoses[h] with
              override := none, meter := { (s.meter h) with keff := x } }) }.replied
          0x28 1 .done []) ∧
        (s.sectionValid .hoses = false → 950 ≤ x ∧ x ≤ 10499999) ∧
        (s.sectionValid .hoses = true → x = ((((s.hoseCfg h).k1000.toNat : Int) * (1000000 +
          (#v[(s.hoseCfg h).c0, (s.hoseCfg h).c1, (s.hoseCfg h).c2,
              (s.hoseCfg h).c3])[(s.meter h).band].toInt) + 500000) / 1000000).toNat))) ∧
  ∀ s : State, s.cfg.loading.isSome = true → ∃ u : State,
    exec .configLoadingComplete s = .next (u.settle s) ∧
    ∀ h : Hose, u.hoses[h].override = none

/-- R164, R168 to R171, R186: loads. RELOAD_CONFIG is refused with STATE while a fill is beyond IDLE,
else it executes. A load's completion copies the store's sections, their words in error counted and
captured (`WordsRead`; after a reset those of the epoch too, R165) and a section with a double error
invalid, judges them, sets CONFIG_FAULT exactly while one is invalid, ends the parity fault, changes no
word of the store, and answers a waiting RELOAD_CONFIG with the validity of each section and
CONFIG_FAULT; entering CONFIG_FAULT ends every fill and an OPEN or QUERYING visit (R39, R74); that of a
reset starts the timers and recovery. A parity check that finds a fault where none stands begins one:
CONFIG_FAULT, a reload pending, every fill ended and the visit in ENDING with CONFIG_FAULT (R39, R74,
R169).

Of each tank a load creates or removes the home tank unit, its bund input (R117) and its pump controller,
a receipt that is open at a removed unit closed without a record and its reservation released (R85, R92,
R106: `HomeLoaded`, `PumpLoaded`, `State.releasedBy`), and empties the view of a tank that leaves the
homed list (`ViewLoaded`). Of each hose it sets the Keff, ends the override, and sets the fault runs to
0 where the meter unit does not operate (R4, R18, R176: `MeterLoaded`). At a load the link controller
keeps its state for the same number and rate; for another it empties queue and pending offers, ends
retries and a withdrawal and takes the new ones up from the next IDLE; with STATION invalid it leaves
the line (R152).

The model's choices: in the reply the validity of each section and CONFIG_FAULT are one byte each, 1 or
0, which R187 does not give (log 14); with STATION invalid the line is in WAIT with the idle count 0, a
line state that R152 does not give (log 2); the load under way when RELOAD_CONFIG is taken answers it
(log 34); a disarmed fill keeps its flags (log 60); a reload that ends a withdrawal leaves the rejoined
mark as it was (log 35); what the next IDLE is and what becomes of a frame being sent (log 56); a new
controller's PUMP frame goes with the emptied queue (log 51); the homed list and the home stations at a
load that finds TANKS or STATION invalid (log 10) and no controller in the latter case (log 28); the
temperature of a new unit (log 3); what a view keeps, also that of a tank with home station 0 (log 50);
the own draw totals at the first number (log 6); the Keff with HOSES invalid is free (log 46). -/
def Obligations.Loading : Prop :=
  (∀ s : State, s.LineFree →
    (s.allIdle = false → exec .reloadConfig s = .next (s.replied 0x25 0 .refused [1])) ∧
    (s.allIdle = true → ∃ t : State, exec .reloadConfig s = .next t ∧
      t.term.engine = some 0x25 ∧ t.term.slot = none ∧ t.term.latch = false ∧
      t.term.key = false ∧ t.cfg.loading.isSome = true ∧
      t = { s with term := t.term,
                   cfg := { s.cfg with reloadPending := false, loading := t.cfg.loading } })) ∧
  (∀ (s : State) (cause : LoadCause), s.cfg.loading = some cause → ∃ u : State,
    exec .configLoadingComplete s = .next (u.settle s) ∧ u.store = s.store ∧
    (∃ m n : State,
      WordsRead s m (fun e => match e.area with | .config _ => true | _ => false) ∧
      (cause ≠ .reset → n = m) ∧
      (cause = .reset → WordsRead m n (fun e => e.area == .epoch)) ∧
      u.nv.sc = n.nv.sc ∧ u.nv.dc = n.nv.dc ∧ u.nv.scCap = n.nv.scCap ∧
      u.nv.dcCap = n.nv.dcCap ∧ (n.flagSet .nv = true → u.flagSet .nv = true)) ∧
    (∀ sec : Section, (∃ e ∈ s.store.errs, e.area = .config sec ∧ e.double = true) →
      u.sectionValid sec = false) ∧
    u.cfg.data = s.store.config ∧ u.cfg.valid = judgeSections s.store ∧
    u.cfg.loading = none ∧ u.cfg.parityFault = false ∧ u.cfg.reloadPending = false ∧
    (u.cfg.fault = true ↔ ∃ sec : Section, u.sectionValid sec = false) ∧
    (s.cfg.fault ≠ u.cfg.fault → u.flagSet .config = true) ∧
    (s.term.engine = some 0x25 → u.term.engine = none ∧ u.term.ready = true ∧
      u.term.slot = some { code := 0x25, status := .done, items :=
        [Section.station, .hoses, .tanks, .products, .rules].map (fun sec =>
          if u.sectionValid sec then (1 : Byte) else 0) ++ [if u.cfg.fault then 1 else 0] }) ∧
    (∀ t : Tank, HomeLoaded s u t ∧ PumpLoaded s u t ∧ ViewLoaded s u t) ∧
    (∀ h : Hose, MeterLoaded s u h) ∧
    u.nv.reservations = s.nv.reservations - s.releasedBy u ∧
    u.shut = { s.shut with bund := u.shut.bund } ∧
    (s.cfg.fault = false → u.cfg.fault = true →
      ((s.visit.state = .querying ∨ s.visit.state = .opened) →
        u.visit.state = .ending ∧ u.visit.lastOutcome = some .configFault ∧
        u.visit.machineId = s.visit.machineId ∧ u.visit.queryT = none ∧ u.visit.idleT = none) ∧
      ∀ h : Hose, (u.fill h).running = false ∧ (u.fill h).waits = false ∧
        ((s.fill h).running = true →
          (u.fill h).state = .settling ∧ (u.fill h).endCause = some .configFault) ∧
        ((s.fill h).waits = true → (u.fill h).state = .idle ∧
          (u.fill h).lastOutcome = some (.ended .configFault))) ∧
    ((s.cfg.fault = true ∨ u.cfg.fault = false ∨
        s.visit.state ≠ .querying ∧ s.visit.state ≠ .opened) → u.visit = s.visit) ∧
    (s.term.engine ≠ some 0x25 → u.term = s.term) ∧
    (∀ (x : Option Station × Byte) (l : Link), u.link = l →
      x = (stationOf s.store.config.station.number, s.store.config.station.rate) →
      l = { s.link with
        line := l.line, idleCount := l.idleCount, dropped := l.dropped, txQueue := l.txQueue,
        pendPump := l.pendPump, pendGauge := l.pendGauge, pendBeacon := l.pendBeacon,
        retry := l.retry, withdrawn := l.withdrawn, withdrawT := l.withdrawT,
        number := l.number, rate := l.rate, next := l.next } ∧
      (u.sectionValid .station = false → l.line = .wait ∧ l.idleCount = 0 ∧
        (∀ e ∈ l.txQueue, e.sending = false) ∧ l.retry = s.link.retry ∧
        l.withdrawn = s.link.withdrawn ∧ l.number = s.link.number ∧ l.rate = s.link.rate ∧
        l.next = s.link.next) ∧
      (u.sectionValid .station = true →
        (s.link.number = none → (l.number, l.rate) = x ∧ l.next = none ∧
          l.line = s.link.line ∧ l.retry = s.link.retry ∧ l.withdrawn = s.link.withdrawn) ∧
        (s.link.number ≠ none → s.link.next.getD (s.link.number, s.link.rate) = x →
          l = { s.link with
            txQueue := l.txQueue, pendPump := l.pendPump, pendGauge := l.pendGauge,
            pendBeacon := l.pendBeacon } ∧ l.pendGauge = s.link.pendGauge ∧
          l.pendBeacon = s.link.pendBeacon) ∧
        (s.link.number ≠ none → s.link.next.getD (s.link.number, s.link.rate) ≠ x →
          l.txQueue = [] ∧ l.pendPump = [] ∧ l.pendGauge = [] ∧ l.pendBeacon = none ∧
          l.retry = 0 ∧ l.withdrawn = false ∧ l.withdrawT = none ∧
          (s.link.line = .idle → l.line = .idle ∧ (l.number, l.rate) = x ∧ l.next = none) ∧
          (s.link.line = .sending → l.line = .wait ∧ l.idleCount = 0) ∧
          (s.link.line ≠ .sending → l.line = s.link.line ∧
            l.idleCount = s.link.idleCount) ∧
          (s.link.line ≠ .idle → l.number = s.link.number ∧ l.rate = s.link.rate ∧
            l.next = some x)))) ∧
    (cause ≠ .reset → u.phase = s.phase) ∧
    (cause = .reset → u.phase = .recovery ∧ u.cfg.parityT = some 1000 ∧
      (∀ h : Hose, (u.meter h).interval = some 100 ∧ u.hoses[h].ramp = some 100) ∧
      (s.nv.queue = [] → u.nv.queue = [.epochUpdate (s.store.epoch + 1)]))) ∧
  ∀ s : State, s.cfg.parityT.isSome = true →
    ((s.sectionMismatch || s.overrideMismatch) = false ∨ s.cfg.parityFault = true →
      exec .parityCheck s = .next { s with cfg := { s.cfg with parityT := some 1000 } }) ∧
    ((s.sectionMismatch || s.overrideMismatch) = true → s.cfg.parityFault = false →
      ∃ u : State, exec .parityCheck s = .next (u.settle s) ∧ u.flagSet .config = true ∧
        u.cfg = { s.cfg with
          fault := true, parityFault := true, reloadPending := true, parityT := some 1000,
          parityFaults := Nat.min (s.cfg.parityFaults + 1) 65535 } ∧
        (s.cfg.fault = true → u.hoses = s.hoses ∧ u.visit = s.visit) ∧
        (s.cfg.fault = false → ∀ h : Hose, (u.fill h).running = false ∧
          (u.fill h).waits = false ∧
          ((s.fill h).running = true → (u.fill h).endCause = some .configFault) ∧
          ((s.fill h).waits = true →
            FillDisarms (s.fill h) (u.fill h) (.ended .configFault))) ∧
        (s.cfg.fault = false →
          ((s.visit.state = .querying ∨ s.visit.state = .opened) →
            u.visit.state = .ending ∧ u.visit.lastOutcome = some .configFault ∧
            u.visit.machineId = s.visit.machineId) ∧
          ((s.visit.state ≠ .querying ∧ s.visit.state ≠ .opened) → u.visit = s.visit)))

/-! ## Lane state -/

/-- R39, R59, R74, R183, R184: CLOSE_LANE in OPEN without a close pending ends every fill and the
visit with LANE_CLOSING and deactivates the tag interface, the close pending; OPEN_LANE opens the
lane or cancels the close and, with hose 0 off the hook, activates the tag interface again; each
changes nothing in the other lane states. Both are answered DONE. The model's choices: a disarmed fill
keeps its flags (log 60), and before its first debounced position hose 0 is not off the hook (log 83). -/
def Obligations.LaneState : Prop :=
  ∀ s : State, s.LineFree →
    ((s.laneClosed = true ∨ s.closePending = true) →
      exec .closeLane s = .next (s.replied 0x17 0 .done [])) ∧
    (s.laneClosed = false → s.closePending = false →
      exec .openLane s = .next (s.replied 0x18 0 .done [])) ∧
    (s.laneClosed = false → s.closePending = false → ∃ u : State,
      exec .closeLane s = .next ((u.settle (s.atRequest 0)).formReply 0x17 .done []) ∧
      u.closePending = true ∧ u.laneClosed = false ∧ u.tag.act = .off ∧
      (∀ h : Hose, (u.fill h).running = false ∧ (u.fill h).waits = false ∧
        ((s.fill h).running = true →
          FillSettles (s.fill h) (u.fill h) .laneClosing (s.fill h).valveCmd) ∧
        ((s.fill h).waits = true →
          FillDisarms (s.fill h) (u.fill h) (.ended .laneClosing)) ∧
        ((s.fill h).running = false → (s.fill h).waits = false → u.fill h = s.fill h)) ∧
      ((s.visit.state = .querying ∨ s.visit.state = .opened) →
        u.visit.state = .ending ∧ u.visit.lastOutcome = some .laneClosing) ∧
      u = { s.atRequest 0 with
        closePending := true, hoses := u.hoses, visit := u.visit, tag := u.tag,
        nv := { s.nv with reservations := u.nv.reservations } }) ∧
    (s.laneClosed = true ∨ s.closePending = true → ∃ u : State,
      exec .openLane s = .next ((u.settle (s.atRequest 0)).formReply 0x18 .done []) ∧
      u = { s.atRequest 0 with laneClosed := false, closePending := false, tag := u.tag } ∧
      (s.tag.act = .off → s.link.dupStation = false →
        s.hoses[(0 : Hose)].hook.debounced = some true → u.tag.act = .powering) ∧
      (s.hoses[(0 : Hose)].hook.debounced ≠ some true → u.tag = s.tag))

end
end

