-- ==== Sys2Proof/Laws/State.lean ====
section
/-! SUPPORT. The fields of the state after each named update: one lemma per field per update. -/

namespace Sys2Proof.Machine

/-! ## Tables -/

@[simp] theorem put_get {α : Type} {n : Nat} (v : Vector α n) (i : Fin n) (x : α) :
    (put v i x)[i] = x := by simp [put]

@[simp] theorem put_get_val {α : Type} {n : Nat} (v : Vector α n) (i : Fin n) (x : α) :
    (put v i x)[i.val] = x := by simp [put]

theorem put_get_eq {α : Type} {n : Nat} (v : Vector α n) (i j : Fin n) (x : α) :
    (put v i x)[j] = if i = j then x else v[j] := by
  simp [put, Vector.getElem_set, Fin.ext_iff]

@[simp] theorem put_get_ne {α : Type} {n : Nat} {v : Vector α n} {i j : Fin n} {x : α}
    (h : i ≠ j) : (put v i x)[j] = v[j] := by rw [put_get_eq, if_neg h]

@[simp] theorem put_get_val_ne {α : Type} {n : Nat} {v : Vector α n} {i j : Fin n} {x : α}
    (h : i ≠ j) : (put v i x)[j.val] = v[j.val] := put_get_ne h

@[simp] theorem put_put {α : Type} {n : Nat} (v : Vector α n) (i : Fin n) (x y : α) :
    put (put v i x) i y = put v i y := by simp [put]

@[simp] theorem put_self {α : Type} {n : Nat} (v : Vector α n) (i : Fin n) :
    put v i v[i] = v := by simp [put]

@[simp] theorem mapVec_get {α β : Type} {n : Nat} (f : α → β) (v : Vector α n) (i : Fin n) :
    (mapVec f v)[i] = f v[i] := by simp [mapVec]

@[simp] theorem mapVec_get_val {α β : Type} {n : Nat} (f : α → β) (v : Vector α n) (i : Fin n) :
    (mapVec f v)[i.val] = f v[i] := by simp [mapVec]

theorem mem_indices {n : Nat} (i : Fin n) : i ∈ indices n := by simp [indices]

/-! ## One lemma per field per update -/

section
variable (s : State)

@[simp] theorem State.modHose_pending (h : Hose) (f : HoseUnit → HoseUnit) : (s.modHose h f).pending = s.pending := rfl
@[simp] theorem State.modHose_hoses (h : Hose) (f : HoseUnit → HoseUnit) :
    (s.modHose h f).hoses = put s.hoses h (f s.hoses[h]) := rfl
@[simp] theorem State.modHose_tag (h : Hose) (f : HoseUnit → HoseUnit) : (s.modHose h f).tag = s.tag := rfl
@[simp] theorem State.modHose_visit (h : Hose) (f : HoseUnit → HoseUnit) : (s.modHose h f).visit = s.visit := rfl
@[simp] theorem State.modHose_accounts (h : Hose) (f : HoseUnit → HoseUnit) : (s.modHose h f).accounts = s.accounts := rfl
@[simp] theorem State.modHose_views (h : Hose) (f : HoseUnit → HoseUnit) : (s.modHose h f).views = s.views := rfl
@[simp] theorem State.modHose_home (h : Hose) (f : HoseUnit → HoseUnit) : (s.modHose h f).home = s.home := rfl
@[simp] theorem State.modHose_pumps (h : Hose) (f : HoseUnit → HoseUnit) : (s.modHose h f).pumps = s.pumps := rfl
@[simp] theorem State.modHose_pressure (h : Hose) (f : HoseUnit → HoseUnit) : (s.modHose h f).pressure = s.pressure := rfl
@[simp] theorem State.modHose_shut (h : Hose) (f : HoseUnit → HoseUnit) : (s.modHose h f).shut = s.shut := rfl
@[simp] theorem State.modHose_link (h : Hose) (f : HoseUnit → HoseUnit) : (s.modHose h f).link = s.link := rfl
@[simp] theorem State.modHose_store (h : Hose) (f : HoseUnit → HoseUnit) : (s.modHose h f).store = s.store := rfl
@[simp] theorem State.modHose_nv (h : Hose) (f : HoseUnit → HoseUnit) : (s.modHose h f).nv = s.nv := rfl
@[simp] theorem State.modHose_cfg (h : Hose) (f : HoseUnit → HoseUnit) : (s.modHose h f).cfg = s.cfg := rfl
@[simp] theorem State.modHose_term (h : Hose) (f : HoseUnit → HoseUnit) : (s.modHose h f).term = s.term := rfl
@[simp] theorem State.modHose_flags (h : Hose) (f : HoseUnit → HoseUnit) : (s.modHose h f).flags = s.flags := rfl
@[simp] theorem State.modHose_mask (h : Hose) (f : HoseUnit → HoseUnit) : (s.modHose h f).mask = s.mask := rfl
@[simp] theorem State.modHose_clock (h : Hose) (f : HoseUnit → HoseUnit) : (s.modHose h f).clock = s.clock := rfl
@[simp] theorem State.modHose_clockUnset (h : Hose) (f : HoseUnit → HoseUnit) : (s.modHose h f).clockUnset = s.clockUnset := rfl
@[simp] theorem State.modHose_laneClosed (h : Hose) (f : HoseUnit → HoseUnit) : (s.modHose h f).laneClosed = s.laneClosed := rfl
@[simp] theorem State.modHose_closePending (h : Hose) (f : HoseUnit → HoseUnit) : (s.modHose h f).closePending = s.closePending := rfl
@[simp] theorem State.modHose_phase (h : Hose) (f : HoseUnit → HoseUnit) : (s.modHose h f).phase = s.phase := rfl
@[simp] theorem State.modHose_firstBeaconT (h : Hose) (f : HoseUnit → HoseUnit) : (s.modHose h f).firstBeaconT = s.firstBeaconT := rfl
@[simp] theorem State.modHose_lastReset (h : Hose) (f : HoseUnit → HoseUnit) : (s.modHose h f).lastReset = s.lastReset := rfl

@[simp] theorem State.modFill_pending (h : Hose) (f : Fill → Fill) : (s.modFill h f).pending = s.pending := rfl
@[simp] theorem State.modFill_tag (h : Hose) (f : Fill → Fill) : (s.modFill h f).tag = s.tag := rfl
@[simp] theorem State.modFill_visit (h : Hose) (f : Fill → Fill) : (s.modFill h f).visit = s.visit := rfl
@[simp] theorem State.modFill_accounts (h : Hose) (f : Fill → Fill) : (s.modFill h f).accounts = s.accounts := rfl
@[simp] theorem State.modFill_views (h : Hose) (f : Fill → Fill) : (s.modFill h f).views = s.views := rfl
@[simp] theorem State.modFill_home (h : Hose) (f : Fill → Fill) : (s.modFill h f).home = s.home := rfl
@[simp] theorem State.modFill_pumps (h : Hose) (f : Fill → Fill) : (s.modFill h f).pumps = s.pumps := rfl
@[simp] theorem State.modFill_pressure (h : Hose) (f : Fill → Fill) : (s.modFill h f).pressure = s.pressure := rfl
@[simp] theorem State.modFill_shut (h : Hose) (f : Fill → Fill) : (s.modFill h f).shut = s.shut := rfl
@[simp] theorem State.modFill_link (h : Hose) (f : Fill → Fill) : (s.modFill h f).link = s.link := rfl
@[simp] theorem State.modFill_store (h : Hose) (f : Fill → Fill) : (s.modFill h f).store = s.store := rfl
@[simp] theorem State.modFill_nv (h : Hose) (f : Fill → Fill) : (s.modFill h f).nv = s.nv := rfl
@[simp] theorem State.modFill_cfg (h : Hose) (f : Fill → Fill) : (s.modFill h f).cfg = s.cfg := rfl
@[simp] theorem State.modFill_term (h : Hose) (f : Fill → Fill) : (s.modFill h f).term = s.term := rfl
@[simp] theorem State.modFill_flags (h : Hose) (f : Fill → Fill) : (s.modFill h f).flags = s.flags := rfl
@[simp] theorem State.modFill_mask (h : Hose) (f : Fill → Fill) : (s.modFill h f).mask = s.mask := rfl
@[simp] theorem State.modFill_clock (h : Hose) (f : Fill → Fill) : (s.modFill h f).clock = s.clock := rfl
@[simp] theorem State.modFill_clockUnset (h : Hose) (f : Fill → Fill) : (s.modFill h f).clockUnset = s.clockUnset := rfl
@[simp] theorem State.modFill_laneClosed (h : Hose) (f : Fill → Fill) : (s.modFill h f).laneClosed = s.laneClosed := rfl
@[simp] theorem State.modFill_closePending (h : Hose) (f : Fill → Fill) : (s.modFill h f).closePending = s.closePending := rfl
@[simp] theorem State.modFill_phase (h : Hose) (f : Fill → Fill) : (s.modFill h f).phase = s.phase := rfl
@[simp] theorem State.modFill_firstBeaconT (h : Hose) (f : Fill → Fill) : (s.modFill h f).firstBeaconT = s.firstBeaconT := rfl
@[simp] theorem State.modFill_lastReset (h : Hose) (f : Fill → Fill) : (s.modFill h f).lastReset = s.lastReset := rfl

@[simp] theorem State.modMeter_pending (h : Hose) (f : Meter → Meter) : (s.modMeter h f).pending = s.pending := rfl
@[simp] theorem State.modMeter_tag (h : Hose) (f : Meter → Meter) : (s.modMeter h f).tag = s.tag := rfl
@[simp] theorem State.modMeter_visit (h : Hose) (f : Meter → Meter) : (s.modMeter h f).visit = s.visit := rfl
@[simp] theorem State.modMeter_accounts (h : Hose) (f : Meter → Meter) : (s.modMeter h f).accounts = s.accounts := rfl
@[simp] theorem State.modMeter_views (h : Hose) (f : Meter → Meter) : (s.modMeter h f).views = s.views := rfl
@[simp] theorem State.modMeter_home (h : Hose) (f : Meter → Meter) : (s.modMeter h f).home = s.home := rfl
@[simp] theorem State.modMeter_pumps (h : Hose) (f : Meter → Meter) : (s.modMeter h f).pumps = s.pumps := rfl
@[simp] theorem State.modMeter_pressure (h : Hose) (f : Meter → Meter) : (s.modMeter h f).pressure = s.pressure := rfl
@[simp] theorem State.modMeter_shut (h : Hose) (f : Meter → Meter) : (s.modMeter h f).shut = s.shut := rfl
@[simp] theorem State.modMeter_link (h : Hose) (f : Meter → Meter) : (s.modMeter h f).link = s.link := rfl
@[simp] theorem State.modMeter_store (h : Hose) (f : Meter → Meter) : (s.modMeter h f).store = s.store := rfl
@[simp] theorem State.modMeter_nv (h : Hose) (f : Meter → Meter) : (s.modMeter h f).nv = s.nv := rfl
@[simp] theorem State.modMeter_cfg (h : Hose) (f : Meter → Meter) : (s.modMeter h f).cfg = s.cfg := rfl
@[simp] theorem State.modMeter_term (h : Hose) (f : Meter → Meter) : (s.modMeter h f).term = s.term := rfl
@[simp] theorem State.modMeter_flags (h : Hose) (f : Meter → Meter) : (s.modMeter h f).flags = s.flags := rfl
@[simp] theorem State.modMeter_mask (h : Hose) (f : Meter → Meter) : (s.modMeter h f).mask = s.mask := rfl
@[simp] theorem State.modMeter_clock (h : Hose) (f : Meter → Meter) : (s.modMeter h f).clock = s.clock := rfl
@[simp] theorem State.modMeter_clockUnset (h : Hose) (f : Meter → Meter) : (s.modMeter h f).clockUnset = s.clockUnset := rfl
@[simp] theorem State.modMeter_laneClosed (h : Hose) (f : Meter → Meter) : (s.modMeter h f).laneClosed = s.laneClosed := rfl
@[simp] theorem State.modMeter_closePending (h : Hose) (f : Meter → Meter) : (s.modMeter h f).closePending = s.closePending := rfl
@[simp] theorem State.modMeter_phase (h : Hose) (f : Meter → Meter) : (s.modMeter h f).phase = s.phase := rfl
@[simp] theorem State.modMeter_firstBeaconT (h : Hose) (f : Meter → Meter) : (s.modMeter h f).firstBeaconT = s.firstBeaconT := rfl
@[simp] theorem State.modMeter_lastReset (h : Hose) (f : Meter → Meter) : (s.modMeter h f).lastReset = s.lastReset := rfl

@[simp] theorem State.modView_pending (k : Tank) (f : TankView → TankView) : (s.modView k f).pending = s.pending := rfl
@[simp] theorem State.modView_hoses (k : Tank) (f : TankView → TankView) : (s.modView k f).hoses = s.hoses := rfl
@[simp] theorem State.modView_tag (k : Tank) (f : TankView → TankView) : (s.modView k f).tag = s.tag := rfl
@[simp] theorem State.modView_visit (k : Tank) (f : TankView → TankView) : (s.modView k f).visit = s.visit := rfl
@[simp] theorem State.modView_accounts (k : Tank) (f : TankView → TankView) : (s.modView k f).accounts = s.accounts := rfl
@[simp] theorem State.modView_views (k : Tank) (f : TankView → TankView) :
    (s.modView k f).views = put s.views k (f s.views[k]) := rfl
@[simp] theorem State.modView_home (k : Tank) (f : TankView → TankView) : (s.modView k f).home = s.home := rfl
@[simp] theorem State.modView_pumps (k : Tank) (f : TankView → TankView) : (s.modView k f).pumps = s.pumps := rfl
@[simp] theorem State.modView_pressure (k : Tank) (f : TankView → TankView) : (s.modView k f).pressure = s.pressure := rfl
@[simp] theorem State.modView_shut (k : Tank) (f : TankView → TankView) : (s.modView k f).shut = s.shut := rfl
@[simp] theorem State.modView_link (k : Tank) (f : TankView → TankView) : (s.modView k f).link = s.link := rfl
@[simp] theorem State.modView_store (k : Tank) (f : TankView → TankView) : (s.modView k f).store = s.store := rfl
@[simp] theorem State.modView_nv (k : Tank) (f : TankView → TankView) : (s.modView k f).nv = s.nv := rfl
@[simp] theorem State.modView_cfg (k : Tank) (f : TankView → TankView) : (s.modView k f).cfg = s.cfg := rfl
@[simp] theorem State.modView_term (k : Tank) (f : TankView → TankView) : (s.modView k f).term = s.term := rfl
@[simp] theorem State.modView_flags (k : Tank) (f : TankView → TankView) : (s.modView k f).flags = s.flags := rfl
@[simp] theorem State.modView_mask (k : Tank) (f : TankView → TankView) : (s.modView k f).mask = s.mask := rfl
@[simp] theorem State.modView_clock (k : Tank) (f : TankView → TankView) : (s.modView k f).clock = s.clock := rfl
@[simp] theorem State.modView_clockUnset (k : Tank) (f : TankView → TankView) : (s.modView k f).clockUnset = s.clockUnset := rfl
@[simp] theorem State.modView_laneClosed (k : Tank) (f : TankView → TankView) : (s.modView k f).laneClosed = s.laneClosed := rfl
@[simp] theorem State.modView_closePending (k : Tank) (f : TankView → TankView) : (s.modView k f).closePending = s.closePending := rfl
@[simp] theorem State.modView_phase (k : Tank) (f : TankView → TankView) : (s.modView k f).phase = s.phase := rfl
@[simp] theorem State.modView_firstBeaconT (k : Tank) (f : TankView → TankView) : (s.modView k f).firstBeaconT = s.firstBeaconT := rfl
@[simp] theorem State.modView_lastReset (k : Tank) (f : TankView → TankView) : (s.modView k f).lastReset = s.lastReset := rfl

@[simp] theorem State.modHome_pending (k : Tank) (f : HomeUnit → HomeUnit) : (s.modHome k f).pending = s.pending := rfl
@[simp] theorem State.modHome_hoses (k : Tank) (f : HomeUnit → HomeUnit) : (s.modHome k f).hoses = s.hoses := rfl
@[simp] theorem State.modHome_tag (k : Tank) (f : HomeUnit → HomeUnit) : (s.modHome k f).tag = s.tag := rfl
@[simp] theorem State.modHome_visit (k : Tank) (f : HomeUnit → HomeUnit) : (s.modHome k f).visit = s.visit := rfl
@[simp] theorem State.modHome_accounts (k : Tank) (f : HomeUnit → HomeUnit) : (s.modHome k f).accounts = s.accounts := rfl
@[simp] theorem State.modHome_views (k : Tank) (f : HomeUnit → HomeUnit) : (s.modHome k f).views = s.views := rfl
@[simp] theorem State.modHome_home (k : Tank) (f : HomeUnit → HomeUnit) :
    (s.modHome k f).home = put s.home k (s.home[k].map f) := rfl
@[simp] theorem State.modHome_pumps (k : Tank) (f : HomeUnit → HomeUnit) : (s.modHome k f).pumps = s.pumps := rfl
@[simp] theorem State.modHome_pressure (k : Tank) (f : HomeUnit → HomeUnit) : (s.modHome k f).pressure = s.pressure := rfl
@[simp] theorem State.modHome_shut (k : Tank) (f : HomeUnit → HomeUnit) : (s.modHome k f).shut = s.shut := rfl
@[simp] theorem State.modHome_link (k : Tank) (f : HomeUnit → HomeUnit) : (s.modHome k f).link = s.link := rfl
@[simp] theorem State.modHome_store (k : Tank) (f : HomeUnit → HomeUnit) : (s.modHome k f).store = s.store := rfl
@[simp] theorem State.modHome_nv (k : Tank) (f : HomeUnit → HomeUnit) : (s.modHome k f).nv = s.nv := rfl
@[simp] theorem State.modHome_cfg (k : Tank) (f : HomeUnit → HomeUnit) : (s.modHome k f).cfg = s.cfg := rfl
@[simp] theorem State.modHome_term (k : Tank) (f : HomeUnit → HomeUnit) : (s.modHome k f).term = s.term := rfl
@[simp] theorem State.modHome_flags (k : Tank) (f : HomeUnit → HomeUnit) : (s.modHome k f).flags = s.flags := rfl
@[simp] theorem State.modHome_mask (k : Tank) (f : HomeUnit → HomeUnit) : (s.modHome k f).mask = s.mask := rfl
@[simp] theorem State.modHome_clock (k : Tank) (f : HomeUnit → HomeUnit) : (s.modHome k f).clock = s.clock := rfl
@[simp] theorem State.modHome_clockUnset (k : Tank) (f : HomeUnit → HomeUnit) : (s.modHome k f).clockUnset = s.clockUnset := rfl
@[simp] theorem State.modHome_laneClosed (k : Tank) (f : HomeUnit → HomeUnit) : (s.modHome k f).laneClosed = s.laneClosed := rfl
@[simp] theorem State.modHome_closePending (k : Tank) (f : HomeUnit → HomeUnit) : (s.modHome k f).closePending = s.closePending := rfl
@[simp] theorem State.modHome_phase (k : Tank) (f : HomeUnit → HomeUnit) : (s.modHome k f).phase = s.phase := rfl
@[simp] theorem State.modHome_firstBeaconT (k : Tank) (f : HomeUnit → HomeUnit) : (s.modHome k f).firstBeaconT = s.firstBeaconT := rfl
@[simp] theorem State.modHome_lastReset (k : Tank) (f : HomeUnit → HomeUnit) : (s.modHome k f).lastReset = s.lastReset := rfl

@[simp] theorem State.modPump_pending (k : Tank) (f : Pump → Pump) : (s.modPump k f).pending = s.pending := rfl
@[simp] theorem State.modPump_hoses (k : Tank) (f : Pump → Pump) : (s.modPump k f).hoses = s.hoses := rfl
@[simp] theorem State.modPump_tag (k : Tank) (f : Pump → Pump) : (s.modPump k f).tag = s.tag := rfl
@[simp] theorem State.modPump_visit (k : Tank) (f : Pump → Pump) : (s.modPump k f).visit = s.visit := rfl
@[simp] theorem State.modPump_accounts (k : Tank) (f : Pump → Pump) : (s.modPump k f).accounts = s.accounts := rfl
@[simp] theorem State.modPump_views (k : Tank) (f : Pump → Pump) : (s.modPump k f).views = s.views := rfl
@[simp] theorem State.modPump_home (k : Tank) (f : Pump → Pump) : (s.modPump k f).home = s.home := rfl
@[simp] theorem State.modPump_pumps (k : Tank) (f : Pump → Pump) :
    (s.modPump k f).pumps = put s.pumps k (s.pumps[k].map f) := rfl
@[simp] theorem State.modPump_pressure (k : Tank) (f : Pump → Pump) : (s.modPump k f).pressure = s.pressure := rfl
@[simp] theorem State.modPump_shut (k : Tank) (f : Pump → Pump) : (s.modPump k f).shut = s.shut := rfl
@[simp] theorem State.modPump_link (k : Tank) (f : Pump → Pump) : (s.modPump k f).link = s.link := rfl
@[simp] theorem State.modPump_store (k : Tank) (f : Pump → Pump) : (s.modPump k f).store = s.store := rfl
@[simp] theorem State.modPump_nv (k : Tank) (f : Pump → Pump) : (s.modPump k f).nv = s.nv := rfl
@[simp] theorem State.modPump_cfg (k : Tank) (f : Pump → Pump) : (s.modPump k f).cfg = s.cfg := rfl
@[simp] theorem State.modPump_term (k : Tank) (f : Pump → Pump) : (s.modPump k f).term = s.term := rfl
@[simp] theorem State.modPump_flags (k : Tank) (f : Pump → Pump) : (s.modPump k f).flags = s.flags := rfl
@[simp] theorem State.modPump_mask (k : Tank) (f : Pump → Pump) : (s.modPump k f).mask = s.mask := rfl
@[simp] theorem State.modPump_clock (k : Tank) (f : Pump → Pump) : (s.modPump k f).clock = s.clock := rfl
@[simp] theorem State.modPump_clockUnset (k : Tank) (f : Pump → Pump) : (s.modPump k f).clockUnset = s.clockUnset := rfl
@[simp] theorem State.modPump_laneClosed (k : Tank) (f : Pump → Pump) : (s.modPump k f).laneClosed = s.laneClosed := rfl
@[simp] theorem State.modPump_closePending (k : Tank) (f : Pump → Pump) : (s.modPump k f).closePending = s.closePending := rfl
@[simp] theorem State.modPump_phase (k : Tank) (f : Pump → Pump) : (s.modPump k f).phase = s.phase := rfl
@[simp] theorem State.modPump_firstBeaconT (k : Tank) (f : Pump → Pump) : (s.modPump k f).firstBeaconT = s.firstBeaconT := rfl
@[simp] theorem State.modPump_lastReset (k : Tank) (f : Pump → Pump) : (s.modPump k f).lastReset = s.lastReset := rfl

@[simp] theorem State.modTag_pending (f : Tag → Tag) : (s.modTag f).pending = s.pending := rfl
@[simp] theorem State.modTag_hoses (f : Tag → Tag) : (s.modTag f).hoses = s.hoses := rfl
@[simp] theorem State.modTag_tag (f : Tag → Tag) :
    (s.modTag f).tag = f s.tag := rfl
@[simp] theorem State.modTag_visit (f : Tag → Tag) : (s.modTag f).visit = s.visit := rfl
@[simp] theorem State.modTag_accounts (f : Tag → Tag) : (s.modTag f).accounts = s.accounts := rfl
@[simp] theorem State.modTag_views (f : Tag → Tag) : (s.modTag f).views = s.views := rfl
@[simp] theorem State.modTag_home (f : Tag → Tag) : (s.modTag f).home = s.home := rfl
@[simp] theorem State.modTag_pumps (f : Tag → Tag) : (s.modTag f).pumps = s.pumps := rfl
@[simp] theorem State.modTag_pressure (f : Tag → Tag) : (s.modTag f).pressure = s.pressure := rfl
@[simp] theorem State.modTag_shut (f : Tag → Tag) : (s.modTag f).shut = s.shut := rfl
@[simp] theorem State.modTag_link (f : Tag → Tag) : (s.modTag f).link = s.link := rfl
@[simp] theorem State.modTag_store (f : Tag → Tag) : (s.modTag f).store = s.store := rfl
@[simp] theorem State.modTag_nv (f : Tag → Tag) : (s.modTag f).nv = s.nv := rfl
@[simp] theorem State.modTag_cfg (f : Tag → Tag) : (s.modTag f).cfg = s.cfg := rfl
@[simp] theorem State.modTag_term (f : Tag → Tag) : (s.modTag f).term = s.term := rfl
@[simp] theorem State.modTag_flags (f : Tag → Tag) : (s.modTag f).flags = s.flags := rfl
@[simp] theorem State.modTag_mask (f : Tag → Tag) : (s.modTag f).mask = s.mask := rfl
@[simp] theorem State.modTag_clock (f : Tag → Tag) : (s.modTag f).clock = s.clock := rfl
@[simp] theorem State.modTag_clockUnset (f : Tag → Tag) : (s.modTag f).clockUnset = s.clockUnset := rfl
@[simp] theorem State.modTag_laneClosed (f : Tag → Tag) : (s.modTag f).laneClosed = s.laneClosed := rfl
@[simp] theorem State.modTag_closePending (f : Tag → Tag) : (s.modTag f).closePending = s.closePending := rfl
@[simp] theorem State.modTag_phase (f : Tag → Tag) : (s.modTag f).phase = s.phase := rfl
@[simp] theorem State.modTag_firstBeaconT (f : Tag → Tag) : (s.modTag f).firstBeaconT = s.firstBeaconT := rfl
@[simp] theorem State.modTag_lastReset (f : Tag → Tag) : (s.modTag f).lastReset = s.lastReset := rfl

@[simp] theorem State.modVisit_pending (f : Visit → Visit) : (s.modVisit f).pending = s.pending := rfl
@[simp] theorem State.modVisit_hoses (f : Visit → Visit) : (s.modVisit f).hoses = s.hoses := rfl
@[simp] theorem State.modVisit_tag (f : Visit → Visit) : (s.modVisit f).tag = s.tag := rfl
@[simp] theorem State.modVisit_visit (f : Visit → Visit) :
    (s.modVisit f).visit = f s.visit := rfl
@[simp] theorem State.modVisit_accounts (f : Visit → Visit) : (s.modVisit f).accounts = s.accounts := rfl
@[simp] theorem State.modVisit_views (f : Visit → Visit) : (s.modVisit f).views = s.views := rfl
@[simp] theorem State.modVisit_home (f : Visit → Visit) : (s.modVisit f).home = s.home := rfl
@[simp] theorem State.modVisit_pumps (f : Visit → Visit) : (s.modVisit f).pumps = s.pumps := rfl
@[simp] theorem State.modVisit_pressure (f : Visit → Visit) : (s.modVisit f).pressure = s.pressure := rfl
@[simp] theorem State.modVisit_shut (f : Visit → Visit) : (s.modVisit f).shut = s.shut := rfl
@[simp] theorem State.modVisit_link (f : Visit → Visit) : (s.modVisit f).link = s.link := rfl
@[simp] theorem State.modVisit_store (f : Visit → Visit) : (s.modVisit f).store = s.store := rfl
@[simp] theorem State.modVisit_nv (f : Visit → Visit) : (s.modVisit f).nv = s.nv := rfl
@[simp] theorem State.modVisit_cfg (f : Visit → Visit) : (s.modVisit f).cfg = s.cfg := rfl
@[simp] theorem State.modVisit_term (f : Visit → Visit) : (s.modVisit f).term = s.term := rfl
@[simp] theorem State.modVisit_flags (f : Visit → Visit) : (s.modVisit f).flags = s.flags := rfl
@[simp] theorem State.modVisit_mask (f : Visit → Visit) : (s.modVisit f).mask = s.mask := rfl
@[simp] theorem State.modVisit_clock (f : Visit → Visit) : (s.modVisit f).clock = s.clock := rfl
@[simp] theorem State.modVisit_clockUnset (f : Visit → Visit) : (s.modVisit f).clockUnset = s.clockUnset := rfl
@[simp] theorem State.modVisit_laneClosed (f : Visit → Visit) : (s.modVisit f).laneClosed = s.laneClosed := rfl
@[simp] theorem State.modVisit_closePending (f : Visit → Visit) : (s.modVisit f).closePending = s.closePending := rfl
@[simp] theorem State.modVisit_phase (f : Visit → Visit) : (s.modVisit f).phase = s.phase := rfl
@[simp] theorem State.modVisit_firstBeaconT (f : Visit → Visit) : (s.modVisit f).firstBeaconT = s.firstBeaconT := rfl
@[simp] theorem State.modVisit_lastReset (f : Visit → Visit) : (s.modVisit f).lastReset = s.lastReset := rfl

@[simp] theorem State.modAccounts_pending (f : Accounts → Accounts) : (s.modAccounts f).pending = s.pending := rfl
@[simp] theorem State.modAccounts_hoses (f : Accounts → Accounts) : (s.modAccounts f).hoses = s.hoses := rfl
@[simp] theorem State.modAccounts_tag (f : Accounts → Accounts) : (s.modAccounts f).tag = s.tag := rfl
@[simp] theorem State.modAccounts_visit (f : Accounts → Accounts) : (s.modAccounts f).visit = s.visit := rfl
@[simp] theorem State.modAccounts_accounts (f : Accounts → Accounts) :
    (s.modAccounts f).accounts = f s.accounts := rfl
@[simp] theorem State.modAccounts_views (f : Accounts → Accounts) : (s.modAccounts f).views = s.views := rfl
@[simp] theorem State.modAccounts_home (f : Accounts → Accounts) : (s.modAccounts f).home = s.home := rfl
@[simp] theorem State.modAccounts_pumps (f : Accounts → Accounts) : (s.modAccounts f).pumps = s.pumps := rfl
@[simp] theorem State.modAccounts_pressure (f : Accounts → Accounts) : (s.modAccounts f).pressure = s.pressure := rfl
@[simp] theorem State.modAccounts_shut (f : Accounts → Accounts) : (s.modAccounts f).shut = s.shut := rfl
@[simp] theorem State.modAccounts_link (f : Accounts → Accounts) : (s.modAccounts f).link = s.link := rfl
@[simp] theorem State.modAccounts_store (f : Accounts → Accounts) : (s.modAccounts f).store = s.store := rfl
@[simp] theorem State.modAccounts_nv (f : Accounts → Accounts) : (s.modAccounts f).nv = s.nv := rfl
@[simp] theorem State.modAccounts_cfg (f : Accounts → Accounts) : (s.modAccounts f).cfg = s.cfg := rfl
@[simp] theorem State.modAccounts_term (f : Accounts → Accounts) : (s.modAccounts f).term = s.term := rfl
@[simp] theorem State.modAccounts_flags (f : Accounts → Accounts) : (s.modAccounts f).flags = s.flags := rfl
@[simp] theorem State.modAccounts_mask (f : Accounts → Accounts) : (s.modAccounts f).mask = s.mask := rfl
@[simp] theorem State.modAccounts_clock (f : Accounts → Accounts) : (s.modAccounts f).clock = s.clock := rfl
@[simp] theorem State.modAccounts_clockUnset (f : Accounts → Accounts) : (s.modAccounts f).clockUnset = s.clockUnset := rfl
@[simp] theorem State.modAccounts_laneClosed (f : Accounts → Accounts) : (s.modAccounts f).laneClosed = s.laneClosed := rfl
@[simp] theorem State.modAccounts_closePending (f : Accounts → Accounts) : (s.modAccounts f).closePending = s.closePending := rfl
@[simp] theorem State.modAccounts_phase (f : Accounts → Accounts) : (s.modAccounts f).phase = s.phase := rfl
@[simp] theorem State.modAccounts_firstBeaconT (f : Accounts → Accounts) : (s.modAccounts f).firstBeaconT = s.firstBeaconT := rfl
@[simp] theorem State.modAccounts_lastReset (f : Accounts → Accounts) : (s.modAccounts f).lastReset = s.lastReset := rfl

@[simp] theorem State.modShut_pending (f : Shutdown → Shutdown) : (s.modShut f).pending = s.pending := rfl
@[simp] theorem State.modShut_hoses (f : Shutdown → Shutdown) : (s.modShut f).hoses = s.hoses := rfl
@[simp] theorem State.modShut_tag (f : Shutdown → Shutdown) : (s.modShut f).tag = s.tag := rfl
@[simp] theorem State.modShut_visit (f : Shutdown → Shutdown) : (s.modShut f).visit = s.visit := rfl
@[simp] theorem State.modShut_accounts (f : Shutdown → Shutdown) : (s.modShut f).accounts = s.accounts := rfl
@[simp] theorem State.modShut_views (f : Shutdown → Shutdown) : (s.modShut f).views = s.views := rfl
@[simp] theorem State.modShut_home (f : Shutdown → Shutdown) : (s.modShut f).home = s.home := rfl
@[simp] theorem State.modShut_pumps (f : Shutdown → Shutdown) : (s.modShut f).pumps = s.pumps := rfl
@[simp] theorem State.modShut_pressure (f : Shutdown → Shutdown) : (s.modShut f).pressure = s.pressure := rfl
@[simp] theorem State.modShut_shut (f : Shutdown → Shutdown) :
    (s.modShut f).shut = f s.shut := rfl
@[simp] theorem State.modShut_link (f : Shutdown → Shutdown) : (s.modShut f).link = s.link := rfl
@[simp] theorem State.modShut_store (f : Shutdown → Shutdown) : (s.modShut f).store = s.store := rfl
@[simp] theorem State.modShut_nv (f : Shutdown → Shutdown) : (s.modShut f).nv = s.nv := rfl
@[simp] theorem State.modShut_cfg (f : Shutdown → Shutdown) : (s.modShut f).cfg = s.cfg := rfl
@[simp] theorem State.modShut_term (f : Shutdown → Shutdown) : (s.modShut f).term = s.term := rfl
@[simp] theorem State.modShut_flags (f : Shutdown → Shutdown) : (s.modShut f).flags = s.flags := rfl
@[simp] theorem State.modShut_mask (f : Shutdown → Shutdown) : (s.modShut f).mask = s.mask := rfl
@[simp] theorem State.modShut_clock (f : Shutdown → Shutdown) : (s.modShut f).clock = s.clock := rfl
@[simp] theorem State.modShut_clockUnset (f : Shutdown → Shutdown) : (s.modShut f).clockUnset = s.clockUnset := rfl
@[simp] theorem State.modShut_laneClosed (f : Shutdown → Shutdown) : (s.modShut f).laneClosed = s.laneClosed := rfl
@[simp] theorem State.modShut_closePending (f : Shutdown → Shutdown) : (s.modShut f).closePending = s.closePending := rfl
@[simp] theorem State.modShut_phase (f : Shutdown → Shutdown) : (s.modShut f).phase = s.phase := rfl
@[simp] theorem State.modShut_firstBeaconT (f : Shutdown → Shutdown) : (s.modShut f).firstBeaconT = s.firstBeaconT := rfl
@[simp] theorem State.modShut_lastReset (f : Shutdown → Shutdown) : (s.modShut f).lastReset = s.lastReset := rfl

@[simp] theorem State.modLink_pending (f : Link → Link) : (s.modLink f).pending = s.pending := rfl
@[simp] theorem State.modLink_hoses (f : Link → Link) : (s.modLink f).hoses = s.hoses := rfl
@[simp] theorem State.modLink_tag (f : Link → Link) : (s.modLink f).tag = s.tag := rfl
@[simp] theorem State.modLink_visit (f : Link → Link) : (s.modLink f).visit = s.visit := rfl
@[simp] theorem State.modLink_accounts (f : Link → Link) : (s.modLink f).accounts = s.accounts := rfl
@[simp] theorem State.modLink_views (f : Link → Link) : (s.modLink f).views = s.views := rfl
@[simp] theorem State.modLink_home (f : Link → Link) : (s.modLink f).home = s.home := rfl
@[simp] theorem State.modLink_pumps (f : Link → Link) : (s.modLink f).pumps = s.pumps := rfl
@[simp] theorem State.modLink_pressure (f : Link → Link) : (s.modLink f).pressure = s.pressure := rfl
@[simp] theorem State.modLink_shut (f : Link → Link) : (s.modLink f).shut = s.shut := rfl
@[simp] theorem State.modLink_link (f : Link → Link) :
    (s.modLink f).link = f s.link := rfl
@[simp] theorem State.modLink_store (f : Link → Link) : (s.modLink f).store = s.store := rfl
@[simp] theorem State.modLink_nv (f : Link → Link) : (s.modLink f).nv = s.nv := rfl
@[simp] theorem State.modLink_cfg (f : Link → Link) : (s.modLink f).cfg = s.cfg := rfl
@[simp] theorem State.modLink_term (f : Link → Link) : (s.modLink f).term = s.term := rfl
@[simp] theorem State.modLink_flags (f : Link → Link) : (s.modLink f).flags = s.flags := rfl
@[simp] theorem State.modLink_mask (f : Link → Link) : (s.modLink f).mask = s.mask := rfl
@[simp] theorem State.modLink_clock (f : Link → Link) : (s.modLink f).clock = s.clock := rfl
@[simp] theorem State.modLink_clockUnset (f : Link → Link) : (s.modLink f).clockUnset = s.clockUnset := rfl
@[simp] theorem State.modLink_laneClosed (f : Link → Link) : (s.modLink f).laneClosed = s.laneClosed := rfl
@[simp] theorem State.modLink_closePending (f : Link → Link) : (s.modLink f).closePending = s.closePending := rfl
@[simp] theorem State.modLink_phase (f : Link → Link) : (s.modLink f).phase = s.phase := rfl
@[simp] theorem State.modLink_firstBeaconT (f : Link → Link) : (s.modLink f).firstBeaconT = s.firstBeaconT := rfl
@[simp] theorem State.modLink_lastReset (f : Link → Link) : (s.modLink f).lastReset = s.lastReset := rfl

@[simp] theorem State.modCounts_pending (f : LinkCounts → LinkCounts) : (s.modCounts f).pending = s.pending := rfl
@[simp] theorem State.modCounts_hoses (f : LinkCounts → LinkCounts) : (s.modCounts f).hoses = s.hoses := rfl
@[simp] theorem State.modCounts_tag (f : LinkCounts → LinkCounts) : (s.modCounts f).tag = s.tag := rfl
@[simp] theorem State.modCounts_visit (f : LinkCounts → LinkCounts) : (s.modCounts f).visit = s.visit := rfl
@[simp] theorem State.modCounts_accounts (f : LinkCounts → LinkCounts) : (s.modCounts f).accounts = s.accounts := rfl
@[simp] theorem State.modCounts_views (f : LinkCounts → LinkCounts) : (s.modCounts f).views = s.views := rfl
@[simp] theorem State.modCounts_home (f : LinkCounts → LinkCounts) : (s.modCounts f).home = s.home := rfl
@[simp] theorem State.modCounts_pumps (f : LinkCounts → LinkCounts) : (s.modCounts f).pumps = s.pumps := rfl
@[simp] theorem State.modCounts_pressure (f : LinkCounts → LinkCounts) : (s.modCounts f).pressure = s.pressure := rfl
@[simp] theorem State.modCounts_shut (f : LinkCounts → LinkCounts) : (s.modCounts f).shut = s.shut := rfl
@[simp] theorem State.modCounts_link (f : LinkCounts → LinkCounts) :
    (s.modCounts f).link = { s.link with counts := f s.link.counts } := rfl
@[simp] theorem State.modCounts_store (f : LinkCounts → LinkCounts) : (s.modCounts f).store = s.store := rfl
@[simp] theorem State.modCounts_nv (f : LinkCounts → LinkCounts) : (s.modCounts f).nv = s.nv := rfl
@[simp] theorem State.modCounts_cfg (f : LinkCounts → LinkCounts) : (s.modCounts f).cfg = s.cfg := rfl
@[simp] theorem State.modCounts_term (f : LinkCounts → LinkCounts) : (s.modCounts f).term = s.term := rfl
@[simp] theorem State.modCounts_flags (f : LinkCounts → LinkCounts) : (s.modCounts f).flags = s.flags := rfl
@[simp] theorem State.modCounts_mask (f : LinkCounts → LinkCounts) : (s.modCounts f).mask = s.mask := rfl
@[simp] theorem State.modCounts_clock (f : LinkCounts → LinkCounts) : (s.modCounts f).clock = s.clock := rfl
@[simp] theorem State.modCounts_clockUnset (f : LinkCounts → LinkCounts) : (s.modCounts f).clockUnset = s.clockUnset := rfl
@[simp] theorem State.modCounts_laneClosed (f : LinkCounts → LinkCounts) : (s.modCounts f).laneClosed = s.laneClosed := rfl
@[simp] theorem State.modCounts_closePending (f : LinkCounts → LinkCounts) : (s.modCounts f).closePending = s.closePending := rfl
@[simp] theorem State.modCounts_phase (f : LinkCounts → LinkCounts) : (s.modCounts f).phase = s.phase := rfl
@[simp] theorem State.modCounts_firstBeaconT (f : LinkCounts → LinkCounts) : (s.modCounts f).firstBeaconT = s.firstBeaconT := rfl
@[simp] theorem State.modCounts_lastReset (f : LinkCounts → LinkCounts) : (s.modCounts f).lastReset = s.lastReset := rfl

@[simp] theorem State.modPeer_pending (p : Station) (f : Peer → Peer) : (s.modPeer p f).pending = s.pending := rfl
@[simp] theorem State.modPeer_hoses (p : Station) (f : Peer → Peer) : (s.modPeer p f).hoses = s.hoses := rfl
@[simp] theorem State.modPeer_tag (p : Station) (f : Peer → Peer) : (s.modPeer p f).tag = s.tag := rfl
@[simp] theorem State.modPeer_visit (p : Station) (f : Peer → Peer) : (s.modPeer p f).visit = s.visit := rfl
@[simp] theorem State.modPeer_accounts (p : Station) (f : Peer → Peer) : (s.modPeer p f).accounts = s.accounts := rfl
@[simp] theorem State.modPeer_views (p : Station) (f : Peer → Peer) : (s.modPeer p f).views = s.views := rfl
@[simp] theorem State.modPeer_home (p : Station) (f : Peer → Peer) : (s.modPeer p f).home = s.home := rfl
@[simp] theorem State.modPeer_pumps (p : Station) (f : Peer → Peer) : (s.modPeer p f).pumps = s.pumps := rfl
@[simp] theorem State.modPeer_pressure (p : Station) (f : Peer → Peer) : (s.modPeer p f).pressure = s.pressure := rfl
@[simp] theorem State.modPeer_shut (p : Station) (f : Peer → Peer) : (s.modPeer p f).shut = s.shut := rfl
@[simp] theorem State.modPeer_link (p : Station) (f : Peer → Peer) :
    (s.modPeer p f).link = { s.link with peers := put s.link.peers p (f s.link.peers[p]) } := rfl
@[simp] theorem State.modPeer_store (p : Station) (f : Peer → Peer) : (s.modPeer p f).store = s.store := rfl
@[simp] theorem State.modPeer_nv (p : Station) (f : Peer → Peer) : (s.modPeer p f).nv = s.nv := rfl
@[simp] theorem State.modPeer_cfg (p : Station) (f : Peer → Peer) : (s.modPeer p f).cfg = s.cfg := rfl
@[simp] theorem State.modPeer_term (p : Station) (f : Peer → Peer) : (s.modPeer p f).term = s.term := rfl
@[simp] theorem State.modPeer_flags (p : Station) (f : Peer → Peer) : (s.modPeer p f).flags = s.flags := rfl
@[simp] theorem State.modPeer_mask (p : Station) (f : Peer → Peer) : (s.modPeer p f).mask = s.mask := rfl
@[simp] theorem State.modPeer_clock (p : Station) (f : Peer → Peer) : (s.modPeer p f).clock = s.clock := rfl
@[simp] theorem State.modPeer_clockUnset (p : Station) (f : Peer → Peer) : (s.modPeer p f).clockUnset = s.clockUnset := rfl
@[simp] theorem State.modPeer_laneClosed (p : Station) (f : Peer → Peer) : (s.modPeer p f).laneClosed = s.laneClosed := rfl
@[simp] theorem State.modPeer_closePending (p : Station) (f : Peer → Peer) : (s.modPeer p f).closePending = s.closePending := rfl
@[simp] theorem State.modPeer_phase (p : Station) (f : Peer → Peer) : (s.modPeer p f).phase = s.phase := rfl
@[simp] theorem State.modPeer_firstBeaconT (p : Station) (f : Peer → Peer) : (s.modPeer p f).firstBeaconT = s.firstBeaconT := rfl
@[simp] theorem State.modPeer_lastReset (p : Station) (f : Peer → Peer) : (s.modPeer p f).lastReset = s.lastReset := rfl

@[simp] theorem State.modStore_pending (f : Store → Store) : (s.modStore f).pending = s.pending := rfl
@[simp] theorem State.modStore_hoses (f : Store → Store) : (s.modStore f).hoses = s.hoses := rfl
@[simp] theorem State.modStore_tag (f : Store → Store) : (s.modStore f).tag = s.tag := rfl
@[simp] theorem State.modStore_visit (f : Store → Store) : (s.modStore f).visit = s.visit := rfl
@[simp] theorem State.modStore_accounts (f : Store → Store) : (s.modStore f).accounts = s.accounts := rfl
@[simp] theorem State.modStore_views (f : Store → Store) : (s.modStore f).views = s.views := rfl
@[simp] theorem State.modStore_home (f : Store → Store) : (s.modStore f).home = s.home := rfl
@[simp] theorem State.modStore_pumps (f : Store → Store) : (s.modStore f).pumps = s.pumps := rfl
@[simp] theorem State.modStore_pressure (f : Store → Store) : (s.modStore f).pressure = s.pressure := rfl
@[simp] theorem State.modStore_shut (f : Store → Store) : (s.modStore f).shut = s.shut := rfl
@[simp] theorem State.modStore_link (f : Store → Store) : (s.modStore f).link = s.link := rfl
@[simp] theorem State.modStore_store (f : Store → Store) :
    (s.modStore f).store = f s.store := rfl
@[simp] theorem State.modStore_nv (f : Store → Store) : (s.modStore f).nv = s.nv := rfl
@[simp] theorem State.modStore_cfg (f : Store → Store) : (s.modStore f).cfg = s.cfg := rfl
@[simp] theorem State.modStore_term (f : Store → Store) : (s.modStore f).term = s.term := rfl
@[simp] theorem State.modStore_flags (f : Store → Store) : (s.modStore f).flags = s.flags := rfl
@[simp] theorem State.modStore_mask (f : Store → Store) : (s.modStore f).mask = s.mask := rfl
@[simp] theorem State.modStore_clock (f : Store → Store) : (s.modStore f).clock = s.clock := rfl
@[simp] theorem State.modStore_clockUnset (f : Store → Store) : (s.modStore f).clockUnset = s.clockUnset := rfl
@[simp] theorem State.modStore_laneClosed (f : Store → Store) : (s.modStore f).laneClosed = s.laneClosed := rfl
@[simp] theorem State.modStore_closePending (f : Store → Store) : (s.modStore f).closePending = s.closePending := rfl
@[simp] theorem State.modStore_phase (f : Store → Store) : (s.modStore f).phase = s.phase := rfl
@[simp] theorem State.modStore_firstBeaconT (f : Store → Store) : (s.modStore f).firstBeaconT = s.firstBeaconT := rfl
@[simp] theorem State.modStore_lastReset (f : Store → Store) : (s.modStore f).lastReset = s.lastReset := rfl

@[simp] theorem State.modNv_pending (f : Nv → Nv) : (s.modNv f).pending = s.pending := rfl
@[simp] theorem State.modNv_hoses (f : Nv → Nv) : (s.modNv f).hoses = s.hoses := rfl
@[simp] theorem State.modNv_tag (f : Nv → Nv) : (s.modNv f).tag = s.tag := rfl
@[simp] theorem State.modNv_visit (f : Nv → Nv) : (s.modNv f).visit = s.visit := rfl
@[simp] theorem State.modNv_accounts (f : Nv → Nv) : (s.modNv f).accounts = s.accounts := rfl
@[simp] theorem State.modNv_views (f : Nv → Nv) : (s.modNv f).views = s.views := rfl
@[simp] theorem State.modNv_home (f : Nv → Nv) : (s.modNv f).home = s.home := rfl
@[simp] theorem State.modNv_pumps (f : Nv → Nv) : (s.modNv f).pumps = s.pumps := rfl
@[simp] theorem State.modNv_pressure (f : Nv → Nv) : (s.modNv f).pressure = s.pressure := rfl
@[simp] theorem State.modNv_shut (f : Nv → Nv) : (s.modNv f).shut = s.shut := rfl
@[simp] theorem State.modNv_link (f : Nv → Nv) : (s.modNv f).link = s.link := rfl
@[simp] theorem State.modNv_store (f : Nv → Nv) : (s.modNv f).store = s.store := rfl
@[simp] theorem State.modNv_nv (f : Nv → Nv) :
    (s.modNv f).nv = f s.nv := rfl
@[simp] theorem State.modNv_cfg (f : Nv → Nv) : (s.modNv f).cfg = s.cfg := rfl
@[simp] theorem State.modNv_term (f : Nv → Nv) : (s.modNv f).term = s.term := rfl
@[simp] theorem State.modNv_flags (f : Nv → Nv) : (s.modNv f).flags = s.flags := rfl
@[simp] theorem State.modNv_mask (f : Nv → Nv) : (s.modNv f).mask = s.mask := rfl
@[simp] theorem State.modNv_clock (f : Nv → Nv) : (s.modNv f).clock = s.clock := rfl
@[simp] theorem State.modNv_clockUnset (f : Nv → Nv) : (s.modNv f).clockUnset = s.clockUnset := rfl
@[simp] theorem State.modNv_laneClosed (f : Nv → Nv) : (s.modNv f).laneClosed = s.laneClosed := rfl
@[simp] theorem State.modNv_closePending (f : Nv → Nv) : (s.modNv f).closePending = s.closePending := rfl
@[simp] theorem State.modNv_phase (f : Nv → Nv) : (s.modNv f).phase = s.phase := rfl
@[simp] theorem State.modNv_firstBeaconT (f : Nv → Nv) : (s.modNv f).firstBeaconT = s.firstBeaconT := rfl
@[simp] theorem State.modNv_lastReset (f : Nv → Nv) : (s.modNv f).lastReset = s.lastReset := rfl

@[simp] theorem State.modCfg_pending (f : Cfg → Cfg) : (s.modCfg f).pending = s.pending := rfl
@[simp] theorem State.modCfg_hoses (f : Cfg → Cfg) : (s.modCfg f).hoses = s.hoses := rfl
@[simp] theorem State.modCfg_tag (f : Cfg → Cfg) : (s.modCfg f).tag = s.tag := rfl
@[simp] theorem State.modCfg_visit (f : Cfg → Cfg) : (s.modCfg f).visit = s.visit := rfl
@[simp] theorem State.modCfg_accounts (f : Cfg → Cfg) : (s.modCfg f).accounts = s.accounts := rfl
@[simp] theorem State.modCfg_views (f : Cfg → Cfg) : (s.modCfg f).views = s.views := rfl
@[simp] theorem State.modCfg_home (f : Cfg → Cfg) : (s.modCfg f).home = s.home := rfl
@[simp] theorem State.modCfg_pumps (f : Cfg → Cfg) : (s.modCfg f).pumps = s.pumps := rfl
@[simp] theorem State.modCfg_pressure (f : Cfg → Cfg) : (s.modCfg f).pressure = s.pressure := rfl
@[simp] theorem State.modCfg_shut (f : Cfg → Cfg) : (s.modCfg f).shut = s.shut := rfl
@[simp] theorem State.modCfg_link (f : Cfg → Cfg) : (s.modCfg f).link = s.link := rfl
@[simp] theorem State.modCfg_store (f : Cfg → Cfg) : (s.modCfg f).store = s.store := rfl
@[simp] theorem State.modCfg_nv (f : Cfg → Cfg) : (s.modCfg f).nv = s.nv := rfl
@[simp] theorem State.modCfg_cfg (f : Cfg → Cfg) :
    (s.modCfg f).cfg = f s.cfg := rfl
@[simp] theorem State.modCfg_term (f : Cfg → Cfg) : (s.modCfg f).term = s.term := rfl
@[simp] theorem State.modCfg_flags (f : Cfg → Cfg) : (s.modCfg f).flags = s.flags := rfl
@[simp] theorem State.modCfg_mask (f : Cfg → Cfg) : (s.modCfg f).mask = s.mask := rfl
@[simp] theorem State.modCfg_clock (f : Cfg → Cfg) : (s.modCfg f).clock = s.clock := rfl
@[simp] theorem State.modCfg_clockUnset (f : Cfg → Cfg) : (s.modCfg f).clockUnset = s.clockUnset := rfl
@[simp] theorem State.modCfg_laneClosed (f : Cfg → Cfg) : (s.modCfg f).laneClosed = s.laneClosed := rfl
@[simp] theorem State.modCfg_closePending (f : Cfg → Cfg) : (s.modCfg f).closePending = s.closePending := rfl
@[simp] theorem State.modCfg_phase (f : Cfg → Cfg) : (s.modCfg f).phase = s.phase := rfl
@[simp] theorem State.modCfg_firstBeaconT (f : Cfg → Cfg) : (s.modCfg f).firstBeaconT = s.firstBeaconT := rfl
@[simp] theorem State.modCfg_lastReset (f : Cfg → Cfg) : (s.modCfg f).lastReset = s.lastReset := rfl

@[simp] theorem State.modTerm_pending (f : Term → Term) : (s.modTerm f).pending = s.pending := rfl
@[simp] theorem State.modTerm_hoses (f : Term → Term) : (s.modTerm f).hoses = s.hoses := rfl
@[simp] theorem State.modTerm_tag (f : Term → Term) : (s.modTerm f).tag = s.tag := rfl
@[simp] theorem State.modTerm_visit (f : Term → Term) : (s.modTerm f).visit = s.visit := rfl
@[simp] theorem State.modTerm_accounts (f : Term → Term) : (s.modTerm f).accounts = s.accounts := rfl
@[simp] theorem State.modTerm_views (f : Term → Term) : (s.modTerm f).views = s.views := rfl
@[simp] theorem State.modTerm_home (f : Term → Term) : (s.modTerm f).home = s.home := rfl
@[simp] theorem State.modTerm_pumps (f : Term → Term) : (s.modTerm f).pumps = s.pumps := rfl
@[simp] theorem State.modTerm_pressure (f : Term → Term) : (s.modTerm f).pressure = s.pressure := rfl
@[simp] theorem State.modTerm_shut (f : Term → Term) : (s.modTerm f).shut = s.shut := rfl
@[simp] theorem State.modTerm_link (f : Term → Term) : (s.modTerm f).link = s.link := rfl
@[simp] theorem State.modTerm_store (f : Term → Term) : (s.modTerm f).store = s.store := rfl
@[simp] theorem State.modTerm_nv (f : Term → Term) : (s.modTerm f).nv = s.nv := rfl
@[simp] theorem State.modTerm_cfg (f : Term → Term) : (s.modTerm f).cfg = s.cfg := rfl
@[simp] theorem State.modTerm_term (f : Term → Term) :
    (s.modTerm f).term = f s.term := rfl
@[simp] theorem State.modTerm_flags (f : Term → Term) : (s.modTerm f).flags = s.flags := rfl
@[simp] theorem State.modTerm_mask (f : Term → Term) : (s.modTerm f).mask = s.mask := rfl
@[simp] theorem State.modTerm_clock (f : Term → Term) : (s.modTerm f).clock = s.clock := rfl
@[simp] theorem State.modTerm_clockUnset (f : Term → Term) : (s.modTerm f).clockUnset = s.clockUnset := rfl
@[simp] theorem State.modTerm_laneClosed (f : Term → Term) : (s.modTerm f).laneClosed = s.laneClosed := rfl
@[simp] theorem State.modTerm_closePending (f : Term → Term) : (s.modTerm f).closePending = s.closePending := rfl
@[simp] theorem State.modTerm_phase (f : Term → Term) : (s.modTerm f).phase = s.phase := rfl
@[simp] theorem State.modTerm_firstBeaconT (f : Term → Term) : (s.modTerm f).firstBeaconT = s.firstBeaconT := rfl
@[simp] theorem State.modTerm_lastReset (f : Term → Term) : (s.modTerm f).lastReset = s.lastReset := rfl

@[simp] theorem State.raise_pending (e : EventFlag) : (s.raise e).pending = s.pending := rfl
@[simp] theorem State.raise_hoses (e : EventFlag) : (s.raise e).hoses = s.hoses := rfl
@[simp] theorem State.raise_tag (e : EventFlag) : (s.raise e).tag = s.tag := rfl
@[simp] theorem State.raise_visit (e : EventFlag) : (s.raise e).visit = s.visit := rfl
@[simp] theorem State.raise_accounts (e : EventFlag) : (s.raise e).accounts = s.accounts := rfl
@[simp] theorem State.raise_views (e : EventFlag) : (s.raise e).views = s.views := rfl
@[simp] theorem State.raise_home (e : EventFlag) : (s.raise e).home = s.home := rfl
@[simp] theorem State.raise_pumps (e : EventFlag) : (s.raise e).pumps = s.pumps := rfl
@[simp] theorem State.raise_pressure (e : EventFlag) : (s.raise e).pressure = s.pressure := rfl
@[simp] theorem State.raise_shut (e : EventFlag) : (s.raise e).shut = s.shut := rfl
@[simp] theorem State.raise_link (e : EventFlag) : (s.raise e).link = s.link := rfl
@[simp] theorem State.raise_store (e : EventFlag) : (s.raise e).store = s.store := rfl
@[simp] theorem State.raise_nv (e : EventFlag) : (s.raise e).nv = s.nv := rfl
@[simp] theorem State.raise_cfg (e : EventFlag) : (s.raise e).cfg = s.cfg := rfl
@[simp] theorem State.raise_term (e : EventFlag) : (s.raise e).term = s.term := rfl
@[simp] theorem State.raise_flags (e : EventFlag) :
    (s.raise e).flags = s.flags ||| e.mask := rfl
@[simp] theorem State.raise_mask (e : EventFlag) : (s.raise e).mask = s.mask := rfl
@[simp] theorem State.raise_clock (e : EventFlag) : (s.raise e).clock = s.clock := rfl
@[simp] theorem State.raise_clockUnset (e : EventFlag) : (s.raise e).clockUnset = s.clockUnset := rfl
@[simp] theorem State.raise_laneClosed (e : EventFlag) : (s.raise e).laneClosed = s.laneClosed := rfl
@[simp] theorem State.raise_closePending (e : EventFlag) : (s.raise e).closePending = s.closePending := rfl
@[simp] theorem State.raise_phase (e : EventFlag) : (s.raise e).phase = s.phase := rfl
@[simp] theorem State.raise_firstBeaconT (e : EventFlag) : (s.raise e).firstBeaconT = s.firstBeaconT := rfl
@[simp] theorem State.raise_lastReset (e : EventFlag) : (s.raise e).lastReset = s.lastReset := rfl

@[simp] theorem State.raiseIf_pending (c : Bool) (e : EventFlag) :
    (s.raiseIf c e).pending = s.pending := by cases c <;> rfl
@[simp] theorem State.raiseIf_hoses (c : Bool) (e : EventFlag) :
    (s.raiseIf c e).hoses = s.hoses := by cases c <;> rfl
@[simp] theorem State.raiseIf_tag (c : Bool) (e : EventFlag) :
    (s.raiseIf c e).tag = s.tag := by cases c <;> rfl
@[simp] theorem State.raiseIf_visit (c : Bool) (e : EventFlag) :
    (s.raiseIf c e).visit = s.visit := by cases c <;> rfl
@[simp] theorem State.raiseIf_accounts (c : Bool) (e : EventFlag) :
    (s.raiseIf c e).accounts = s.accounts := by cases c <;> rfl
@[simp] theorem State.raiseIf_views (c : Bool) (e : EventFlag) :
    (s.raiseIf c e).views = s.views := by cases c <;> rfl
@[simp] theorem State.raiseIf_home (c : Bool) (e : EventFlag) :
    (s.raiseIf c e).home = s.home := by cases c <;> rfl
@[simp] theorem State.raiseIf_pumps (c : Bool) (e : EventFlag) :
    (s.raiseIf c e).pumps = s.pumps := by cases c <;> rfl
@[simp] theorem State.raiseIf_pressure (c : Bool) (e : EventFlag) :
    (s.raiseIf c e).pressure = s.pressure := by cases c <;> rfl
@[simp] theorem State.raiseIf_shut (c : Bool) (e : EventFlag) :
    (s.raiseIf c e).shut = s.shut := by cases c <;> rfl
@[simp] theorem State.raiseIf_link (c : Bool) (e : EventFlag) :
    (s.raiseIf c e).link = s.link := by cases c <;> rfl
@[simp] theorem State.raiseIf_store (c : Bool) (e : EventFlag) :
    (s.raiseIf c e).store = s.store := by cases c <;> rfl
@[simp] theorem State.raiseIf_nv (c : Bool) (e : EventFlag) :
    (s.raiseIf c e).nv = s.nv := by cases c <;> rfl
@[simp] theorem State.raiseIf_cfg (c : Bool) (e : EventFlag) :
    (s.raiseIf c e).cfg = s.cfg := by cases c <;> rfl
@[simp] theorem State.raiseIf_term (c : Bool) (e : EventFlag) :
    (s.raiseIf c e).term = s.term := by cases c <;> rfl
@[simp] theorem State.raiseIf_mask (c : Bool) (e : EventFlag) :
    (s.raiseIf c e).mask = s.mask := by cases c <;> rfl
@[simp] theorem State.raiseIf_clock (c : Bool) (e : EventFlag) :
    (s.raiseIf c e).clock = s.clock := by cases c <;> rfl
@[simp] theorem State.raiseIf_clockUnset (c : Bool) (e : EventFlag) :
    (s.raiseIf c e).clockUnset = s.clockUnset := by cases c <;> rfl
@[simp] theorem State.raiseIf_laneClosed (c : Bool) (e : EventFlag) :
    (s.raiseIf c e).laneClosed = s.laneClosed := by cases c <;> rfl
@[simp] theorem State.raiseIf_closePending (c : Bool) (e : EventFlag) :
    (s.raiseIf c e).closePending = s.closePending := by cases c <;> rfl
@[simp] theorem State.raiseIf_phase (c : Bool) (e : EventFlag) :
    (s.raiseIf c e).phase = s.phase := by cases c <;> rfl
@[simp] theorem State.raiseIf_firstBeaconT (c : Bool) (e : EventFlag) :
    (s.raiseIf c e).firstBeaconT = s.firstBeaconT := by cases c <;> rfl
@[simp] theorem State.raiseIf_lastReset (c : Bool) (e : EventFlag) :
    (s.raiseIf c e).lastReset = s.lastReset := by cases c <;> rfl
@[simp] theorem State.raiseIf_flags (c : Bool) (e : EventFlag) :
    (s.raiseIf c e).flags = if c then s.flags ||| e.mask else s.flags := by cases c <;> rfl

end

/-! ## Fills and meters -/

section
variable (s : State)

theorem State.modHose_fill (h k : Hose) (f : HoseUnit → HoseUnit) :
    (s.modHose h f).fill k = if h = k then (f s.hoses[h]).fill else s.fill k := by
  simp only [State.fill, State.modHose_hoses, put_get_eq]; split <;> rfl

theorem State.modHose_meter (h k : Hose) (f : HoseUnit → HoseUnit) :
    (s.modHose h f).meter k = if h = k then (f s.hoses[h]).meter else s.meter k := by
  simp only [State.meter, State.modHose_hoses, put_get_eq]; split <;> rfl

theorem State.modFill_fill (h k : Hose) (f : Fill → Fill) :
    (s.modFill h f).fill k = if h = k then f (s.fill h) else s.fill k :=
  s.modHose_fill h k _

@[simp] theorem State.modFill_fill_self (h : Hose) (f : Fill → Fill) :
    (s.modFill h f).fill h = f (s.fill h) := by simp [State.modFill_fill]

@[simp] theorem State.modFill_fill_ne {h k : Hose} (f : Fill → Fill) (n : h ≠ k) :
    (s.modFill h f).fill k = s.fill k := by simp [State.modFill_fill, n]

theorem State.modMeter_meter (h k : Hose) (f : Meter → Meter) :
    (s.modMeter h f).meter k = if h = k then f (s.meter h) else s.meter k :=
  s.modHose_meter h k _

@[simp] theorem State.modMeter_meter_self (h : Hose) (f : Meter → Meter) :
    (s.modMeter h f).meter h = f (s.meter h) := by simp [State.modMeter_meter]

@[simp] theorem State.modMeter_meter_ne {h k : Hose} (f : Meter → Meter) (n : h ≠ k) :
    (s.modMeter h f).meter k = s.meter k := by simp [State.modMeter_meter, n]

@[simp] theorem State.modFill_meter (h k : Hose) (f : Fill → Fill) :
    (s.modFill h f).meter k = s.meter k := by
  rw [State.modFill, State.modHose_meter]; split <;> simp_all [State.meter]

@[simp] theorem State.modMeter_fill (h k : Hose) (f : Meter → Meter) :
    (s.modMeter h f).fill k = s.fill k := by
  rw [State.modMeter, State.modHose_fill]; split <;> simp_all [State.fill]

@[simp] theorem State.modView_fill (k : Tank) (f : TankView → TankView) (k' : Hose) : (s.modView k f).fill k' = s.fill k' := rfl
@[simp] theorem State.modView_meter (k : Tank) (f : TankView → TankView) (k' : Hose) : (s.modView k f).meter k' = s.meter k' := rfl
@[simp] theorem State.modHome_fill (k : Tank) (f : HomeUnit → HomeUnit) (k' : Hose) : (s.modHome k f).fill k' = s.fill k' := rfl
@[simp] theorem State.modHome_meter (k : Tank) (f : HomeUnit → HomeUnit) (k' : Hose) : (s.modHome k f).meter k' = s.meter k' := rfl
@[simp] theorem State.modPump_fill (k : Tank) (f : Pump → Pump) (k' : Hose) : (s.modPump k f).fill k' = s.fill k' := rfl
@[simp] theorem State.modPump_meter (k : Tank) (f : Pump → Pump) (k' : Hose) : (s.modPump k f).meter k' = s.meter k' := rfl
@[simp] theorem State.modTag_fill (f : Tag → Tag) (k' : Hose) : (s.modTag f).fill k' = s.fill k' := rfl
@[simp] theorem State.modTag_meter (f : Tag → Tag) (k' : Hose) : (s.modTag f).meter k' = s.meter k' := rfl
@[simp] theorem State.modVisit_fill (f : Visit → Visit) (k' : Hose) : (s.modVisit f).fill k' = s.fill k' := rfl
@[simp] theorem State.modVisit_meter (f : Visit → Visit) (k' : Hose) : (s.modVisit f).meter k' = s.meter k' := rfl
@[simp] theorem State.modAccounts_fill (f : Accounts → Accounts) (k' : Hose) : (s.modAccounts f).fill k' = s.fill k' := rfl
@[simp] theorem State.modAccounts_meter (f : Accounts → Accounts) (k' : Hose) : (s.modAccounts f).meter k' = s.meter k' := rfl
@[simp] theorem State.modShut_fill (f : Shutdown → Shutdown) (k' : Hose) : (s.modShut f).fill k' = s.fill k' := rfl
@[simp] theorem State.modShut_meter (f : Shutdown → Shutdown) (k' : Hose) : (s.modShut f).meter k' = s.meter k' := rfl
@[simp] theorem State.modLink_fill (f : Link → Link) (k' : Hose) : (s.modLink f).fill k' = s.fill k' := rfl
@[simp] theorem State.modLink_meter (f : Link → Link) (k' : Hose) : (s.modLink f).meter k' = s.meter k' := rfl
@[simp] theorem State.modCounts_fill (f : LinkCounts → LinkCounts) (k' : Hose) : (s.modCounts f).fill k' = s.fill k' := rfl
@[simp] theorem State.modCounts_meter (f : LinkCounts → LinkCounts) (k' : Hose) : (s.modCounts f).meter k' = s.meter k' := rfl
@[simp] theorem State.modPeer_fill (p : Station) (f : Peer → Peer) (k' : Hose) : (s.modPeer p f).fill k' = s.fill k' := rfl
@[simp] theorem State.modPeer_meter (p : Station) (f : Peer → Peer) (k' : Hose) : (s.modPeer p f).meter k' = s.meter k' := rfl
@[simp] theorem State.modStore_fill (f : Store → Store) (k' : Hose) : (s.modStore f).fill k' = s.fill k' := rfl
@[simp] theorem State.modStore_meter (f : Store → Store) (k' : Hose) : (s.modStore f).meter k' = s.meter k' := rfl
@[simp] theorem State.modNv_fill (f : Nv → Nv) (k' : Hose) : (s.modNv f).fill k' = s.fill k' := rfl
@[simp] theorem State.modNv_meter (f : Nv → Nv) (k' : Hose) : (s.modNv f).meter k' = s.meter k' := rfl
@[simp] theorem State.modCfg_fill (f : Cfg → Cfg) (k' : Hose) : (s.modCfg f).fill k' = s.fill k' := rfl
@[simp] theorem State.modCfg_meter (f : Cfg → Cfg) (k' : Hose) : (s.modCfg f).meter k' = s.meter k' := rfl
@[simp] theorem State.modTerm_fill (f : Term → Term) (k' : Hose) : (s.modTerm f).fill k' = s.fill k' := rfl
@[simp] theorem State.modTerm_meter (f : Term → Term) (k' : Hose) : (s.modTerm f).meter k' = s.meter k' := rfl
@[simp] theorem State.raise_fill (e : EventFlag) (k' : Hose) : (s.raise e).fill k' = s.fill k' := rfl
@[simp] theorem State.raise_meter (e : EventFlag) (k' : Hose) : (s.raise e).meter k' = s.meter k' := rfl
@[simp] theorem State.raiseIf_fill (c : Bool) (e : EventFlag) (k : Hose) :
    (s.raiseIf c e).fill k = s.fill k := by cases c <;> rfl
@[simp] theorem State.raiseIf_meter (c : Bool) (e : EventFlag) (k : Hose) :
    (s.raiseIf c e).meter k = s.meter k := by cases c <;> rfl

/-! ## The meter fields that READ_HOSE returns (R19) -/

@[simp] theorem Meter.show_shown (m : Meter) : m.show.shown = m.view := rfl
@[simp] theorem Meter.show_view (m : Meter) : m.show.view = m.view := rfl
@[simp] theorem Meter.show_chA (m : Meter) : m.show.chA = m.chA := rfl
@[simp] theorem Meter.show_chB (m : Meter) : m.show.chB = m.chB := rfl
@[simp] theorem Meter.show_band (m : Meter) : m.show.band = m.band := rfl
@[simp] theorem Meter.show_keff (m : Meter) : m.show.keff = m.keff := rfl
@[simp] theorem Meter.show_tempStatus (m : Meter) : m.show.tempStatus = m.tempStatus := rfl
@[simp] theorem Meter.show_lastT10 (m : Meter) : m.show.lastT10 = m.lastT10 := rfl
@[simp] theorem Meter.show_lastN (m : Meter) : m.show.lastN = m.lastN := rfl
@[simp] theorem Meter.show_mismatchRun (m : Meter) : m.show.mismatchRun = m.mismatchRun := rfl
@[simp] theorem Meter.show_excessRun (m : Meter) : m.show.excessRun = m.excessRun := rfl
@[simp] theorem Meter.show_creep (m : Meter) : m.show.creep = m.creep := rfl
@[simp] theorem Meter.show_jobCreep (m : Meter) : m.show.jobCreep = m.jobCreep := rfl
@[simp] theorem Meter.show_waitCreep (m : Meter) : m.show.waitCreep = m.waitCreep := rfl
@[simp] theorem Meter.show_interval (m : Meter) : m.show.interval = m.interval := rfl

/-! ## The tank and product of an open accumulation (R17, R18) -/

theorem State.creepTank_valid (s : State) (h : Hose) (c : Creep) (x : Tank)
    (hv : s.sectionValid .hoses = true) (hx : tankOf s.cfg.data.hoses[h].tank = some x) :
    s.creepTank h c = x := by rw [State.creepTank, if_pos hv, hx]; rfl
theorem State.creepTank_invalid (s : State) (h : Hose) (c : Creep)
    (hv : s.sectionValid .hoses = false) : s.creepTank h c = c.tank := by
  simp [State.creepTank, hv]
theorem State.creepProduct_valid (s : State) (h : Hose) (c : Creep)
    (hv : s.sectionValid .hoses = true) :
    s.creepProduct h c = s.cfg.data.hoses[h].product := by simp [State.creepProduct, hv]
theorem State.creepProduct_invalid (s : State) (h : Hose) (c : Creep)
    (hv : s.sectionValid .hoses = false) : s.creepProduct h c = c.product := by
  simp [State.creepProduct, hv]

end

/-! ## The line and the station number (R134, R135, R152) -/

/-- Taking up a number and rate: those that wait, else those in use; nothing waits after it and
nothing else changes. -/
theorem Link.takeUp_eq (l : Link) :
    l.takeUp = { l with number := l.target.1, rate := l.target.2, next := none } := by
  cases l
  unfold Link.takeUp Link.target
  split <;> simp_all

/-- What a line that becomes IDLE changes. -/
theorem Link.becomeIdle_eq (l : Link) (n : Nat) :
    l.becomeIdle n = { l with
      line := .idle, idleCount := n, dropped := false,
      number := l.target.1, rate := l.target.2, next := none } := by
  rw [Link.becomeIdle, Link.takeUp_eq]
  rfl

@[simp] theorem Link.becomeIdle_line (l : Link) (n : Nat) : (l.becomeIdle n).line = .idle := by
  rw [Link.becomeIdle_eq]

@[simp] theorem Link.becomeIdle_txQueue (l : Link) (n : Nat) :
    (l.becomeIdle n).txQueue = l.txQueue := by
  rw [Link.becomeIdle_eq]

/-- The number and rate that a load leaves in use or waiting are those of a valid section. -/
theorem Link.load_target (l : Link) (c : StationCfg) :
    (l.load true c).target = (stationOf c.number, c.rate) := by
  unfold Link.load
  simp only [if_true]
  split
  · rfl
  · split
    · assumption
    · split
      · rw [Link.takeUp_eq]; rfl
      · rfl

end Sys2Proof.Machine
end

