-- ==== Sys2Proof/Laws/Close.lean ====
section
/-! SUPPORT. What each step of the close of an event leaves unchanged: one `CloseFrame` lemma per
shared operation that the close is made of. -/

namespace Sys2Proof.Machine

theorem StillFrame.rfl' (s : State) : StillFrame s s := by constructor <;> rfl

theorem StillFrame.trans {s t u : State} (a : StillFrame s t) (b : StillFrame t u) :
    StillFrame s u := by
  constructor
  · rw [b.pending, a.pending]
  · rw [b.pressure, a.pressure]
  · rw [b.store, a.store]
  · rw [b.term, a.term]
  · rw [b.mask, a.mask]
  · rw [b.clock, a.clock]
  · rw [b.clockUnset, a.clockUnset]
  · rw [b.phase, a.phase]
  · rw [b.firstBeaconT, a.firstBeaconT]
  · rw [b.lastReset, a.lastReset]

theorem CloseFrame.rfl' (s : State) : CloseFrame s s where
  still := .rfl' s
  tag := rfl
  shut := rfl
  flags := by simp
  cfg := rfl
  nv := rfl
  link := rfl
  pends := id
  accounts := rfl
  visit := fun _ => ⟨rfl, rfl, fun _ => rfl⟩
  lane := fun h => ⟨rfl, h⟩
  hose := fun _ => rfl
  fill := fun _ => rfl
  quiet := fun _ _ => rfl
  volume := fun _ h => ⟨h, rfl⟩

theorem CloseFrame.trans {s t u : State} (a : CloseFrame s t) (b : CloseFrame t u) :
    CloseFrame s u where
  still := a.still.trans b.still
  tag := by rw [b.tag, a.tag]
  shut := by rw [b.shut, a.shut]
  flags := by
    have h1 := a.flags
    have h2 := b.flags
    calc s.flags &&& u.flags = (s.flags &&& t.flags) &&& u.flags := by rw [h1]
      _ = s.flags &&& (t.flags &&& u.flags) := by rw [BitVec.and_assoc]
      _ = s.flags := by rw [h2, h1]
  cfg := by rw [b.cfg, a.cfg]
  nv := by rw [b.nv, a.nv]
  link := by rw [b.link, a.link]
  pends := fun h => b.pends (a.pends h)
  accounts := by rw [b.accounts, a.accounts]
  visit := by
    intro h
    obtain ⟨h1, h2, h3⟩ := a.visit h
    have hs : t.visit.state = s.visit.state := by rw [h2]
    obtain ⟨k1, k2, k3⟩ := b.visit (by rw [hs]; exact h)
    refine ⟨by rw [k1, h1], by rw [k2, h2], fun h' => ?_⟩
    rw [k3 (by rw [hs]; exact h'), h3 h']
  lane := by
    intro h
    obtain ⟨h1, h2⟩ := a.lane h
    obtain ⟨k1, k2⟩ := b.lane h2
    exact ⟨by rw [k1, h1], k2⟩
  hose := by
    intro h
    have h1 := a.hose h
    have h2 := b.hose h
    have hm : t.meter h = { s.meter h with jobCreep := (t.meter h).jobCreep, waitCreep := (t.meter h).waitCreep } := congrArg HoseUnit.meter h1
    rw [h2, hm, h1]
  fill := by
    intro h
    have h1 := a.fill h
    have h2 := b.fill h
    rw [h2, h1]
  quiet := by
    intro h hq
    have h1 := a.quiet h hq
    rw [b.quiet h (by rw [h1]; exact hq), h1]
  volume := by
    intro h hs
    obtain ⟨h1, h2⟩ := a.volume h hs
    obtain ⟨k1, k2⟩ := b.volume h h1
    refine ⟨k1, ?_⟩
    rw [k2, h2]

/-! ## Updates of one part -/

theorem CloseFrame.raise (s : State) (e : EventFlag) : CloseFrame s (s.raise e) where
  still := by constructor <;> rfl
  tag := rfl
  shut := rfl
  flags := by
    show s.flags &&& (s.flags ||| e.mask) = s.flags
    ext i
    simp
    grind
  cfg := rfl
  nv := rfl
  link := rfl
  pends := id
  accounts := rfl
  visit := fun _ => ⟨rfl, rfl, fun _ => rfl⟩
  lane := fun h => ⟨rfl, h⟩
  hose := fun _ => rfl
  fill := fun _ => rfl
  quiet := fun _ _ => rfl
  volume := fun _ h => ⟨h, rfl⟩

theorem CloseFrame.raiseIf (s : State) (c : Bool) (e : EventFlag) :
    CloseFrame s (s.raiseIf c e) := by
  cases c
  · exact .rfl' s
  · exact .raise s e

/-- What the link keeps in the close of an event. -/
def LinkKept (l k : Link) : Prop :=
  k = { l with txQueue := k.txQueue, pendPump := k.pendPump, pendGauge := k.pendGauge,
               pendBeacon := k.pendBeacon, newBeacon := k.newBeacon, ownBeacon := k.ownBeacon, beaconT := k.beaconT } ∧
  (l.pendsOnce = true → k.pendsOnce = true)

theorem CloseFrame.modLink {s : State} {f : Link → Link} (h : LinkKept s.link (f s.link)) :
    CloseFrame s (s.modLink f) where
  still := by constructor <;> rfl
  tag := rfl
  shut := rfl
  flags := by simp
  cfg := rfl
  nv := rfl
  link := h.1
  pends := h.2
  accounts := rfl
  visit := fun _ => ⟨rfl, rfl, fun _ => rfl⟩
  lane := fun h => ⟨rfl, h⟩
  hose := fun _ => rfl
  fill := fun _ => rfl
  quiet := fun _ _ => rfl
  volume := fun _ h => ⟨h, rfl⟩

theorem CloseFrame.modView (s : State) (t : Tank) (f : TankView → TankView) :
    CloseFrame s (s.modView t f) where
  still := by constructor <;> rfl
  tag := rfl
  shut := rfl
  flags := by simp
  cfg := rfl
  nv := rfl
  link := rfl
  pends := id
  accounts := rfl
  visit := fun _ => ⟨rfl, rfl, fun _ => rfl⟩
  lane := fun h => ⟨rfl, h⟩
  hose := fun _ => rfl
  fill := fun _ => rfl
  quiet := fun _ _ => rfl
  volume := fun _ h => ⟨h, rfl⟩

theorem CloseFrame.modHome (s : State) (t : Tank) (f : HomeUnit → HomeUnit) :
    CloseFrame s (s.modHome t f) where
  still := by constructor <;> rfl
  tag := rfl
  shut := rfl
  flags := by simp
  cfg := rfl
  nv := rfl
  link := rfl
  pends := id
  accounts := rfl
  visit := fun _ => ⟨rfl, rfl, fun _ => rfl⟩
  lane := fun h => ⟨rfl, h⟩
  hose := fun _ => rfl
  fill := fun _ => rfl
  quiet := fun _ _ => rfl
  volume := fun _ h => ⟨h, rfl⟩

theorem CloseFrame.modPump (s : State) (t : Tank) (f : Pump → Pump) :
    CloseFrame s (s.modPump t f) where
  still := by constructor <;> rfl
  tag := rfl
  shut := rfl
  flags := by simp
  cfg := rfl
  nv := rfl
  link := rfl
  pends := id
  accounts := rfl
  visit := fun _ => ⟨rfl, rfl, fun _ => rfl⟩
  lane := fun h => ⟨rfl, h⟩
  hose := fun _ => rfl
  fill := fun _ => rfl
  quiet := fun _ _ => rfl
  volume := fun _ h => ⟨h, rfl⟩

/-- What the record log's volatile side keeps in the close of an event. -/
def NvKept (n m : Nv) : Prop :=
  m = { n with queue := m.queue, held := m.held, run := m.run, nextSeq := m.nextSeq }

theorem CloseFrame.modNv {s : State} {f : Nv → Nv} (h : NvKept s.nv (f s.nv)) :
    CloseFrame s (s.modNv f) where
  still := by constructor <;> rfl
  tag := rfl
  shut := rfl
  flags := by simp
  cfg := rfl
  nv := h
  link := rfl
  pends := id
  accounts := rfl
  visit := fun _ => ⟨rfl, rfl, fun _ => rfl⟩
  lane := fun h => ⟨rfl, h⟩
  hose := fun _ => rfl
  fill := fun _ => rfl
  quiet := fun _ _ => rfl
  volume := fun _ h => ⟨h, rfl⟩

theorem CloseFrame.modCfg {s : State} {f : Cfg → Cfg}
    (h : f s.cfg = { s.cfg with reloadPending := (f s.cfg).reloadPending,
                                loading := (f s.cfg).loading }) :
    CloseFrame s (s.modCfg f) where
  still := by constructor <;> rfl
  tag := rfl
  shut := rfl
  flags := by simp
  cfg := h
  nv := rfl
  link := rfl
  pends := id
  accounts := rfl
  visit := fun _ => ⟨rfl, rfl, fun _ => rfl⟩
  lane := fun h => ⟨rfl, h⟩
  hose := fun _ => rfl
  fill := fun _ => rfl
  quiet := fun _ _ => rfl
  volume := fun _ h => ⟨h, rfl⟩

/-- What a fill that demands its tank keeps in the close of an event. -/
def FillKept (f g : Fill) : Prop :=
  g = { f with
    state := g.state, seq := g.seq, gross := g.gross, net := g.net, grossRes := g.grossRes,
    netRes := g.netRes, tempSum := g.tempSum, startTime := g.startTime,
    rampTarget := g.rampTarget, released := g.released, holds := g.holds,
    nextMark := g.nextMark, startT := g.startT, noFlowT := g.noFlowT, holdT := g.holdT,
    tagLossT := g.tagLossT }

/-- What a fill that is not in STARTING keeps in the close of an event. -/
def VolumeKept (f g : Fill) : Prop :=
  g.state ≠ .starting ∧
  g = { g with
    seq := f.seq, gross := f.gross, net := f.net, grossRes := f.grossRes, netRes := f.netRes,
    tempSum := f.tempSum, startTime := f.startTime, released := f.released,
    nextMark := f.nextMark }

theorem CloseFrame.modFill {s : State} {h : Hose} {f : Fill → Fill}
    (hk : FillKept (s.fill h) (f (s.fill h)))
    (hq : (s.fill h).demands = false → f (s.fill h) = s.fill h)
    (hv : (s.fill h).state ≠ .starting → VolumeKept (s.fill h) (f (s.fill h))) :
    CloseFrame s (s.modFill h f) where
  still := by constructor <;> rfl
  tag := rfl
  shut := rfl
  flags := by simp
  cfg := rfl
  nv := rfl
  link := rfl
  pends := id
  accounts := rfl
  visit := fun _ => ⟨rfl, rfl, fun _ => rfl⟩
  lane := fun h => ⟨rfl, h⟩
  hose := by
    intro k
    by_cases e : h = k
    · subst e
      show (put _ _ _)[h] = _
      rw [put_get, State.modFill_fill_self, State.modFill_meter]
      rfl
    · show (put _ _ _)[k] = _
      rw [put_get_ne e, State.modFill_fill_ne _ _ e, State.modFill_meter]
      rfl
  fill := by
    intro k
    by_cases e : h = k
    · subst e; rw [State.modFill_fill_self]; exact hk
    · rw [State.modFill_fill_ne _ _ e]
  quiet := by
    intro k hd
    by_cases e : h = k
    · subst e; rw [State.modFill_fill_self]; exact hq hd
    · rw [State.modFill_fill_ne _ _ e]
  volume := by
    intro k hs
    by_cases e : h = k
    · subst e; rw [State.modFill_fill_self]; exact hv hs
    · rw [State.modFill_fill_ne _ _ e]; exact ⟨hs, rfl⟩

theorem CloseFrame.modMeter {s : State} {h : Hose} {f : Meter → Meter}
    (hk : f (s.meter h) = { s.meter h with jobCreep := (f (s.meter h)).jobCreep,
                                           waitCreep := (f (s.meter h)).waitCreep }) :
    CloseFrame s (s.modMeter h f) where
  still := by constructor <;> rfl
  tag := rfl
  shut := rfl
  flags := by simp
  cfg := rfl
  nv := rfl
  link := rfl
  pends := id
  accounts := rfl
  visit := fun _ => ⟨rfl, rfl, fun _ => rfl⟩
  lane := fun h => ⟨rfl, h⟩
  hose := by
    intro k
    by_cases e : h = k
    · subst e
      rw [State.modMeter_meter_self, ← hk, State.modMeter_fill]
      show (put _ _ _)[h] = _
      rw [put_get]
      rfl
    · rw [State.modMeter_meter_ne _ _ e, State.modMeter_fill]
      show (put _ _ _)[k] = _
      rw [put_get_ne e]
      rfl
  fill := by intro k; rw [State.modMeter_fill]
  quiet := by intro k _; rw [State.modMeter_fill]
  volume := by intro k hs; rw [State.modMeter_fill]; exact ⟨hs, rfl⟩

/-! ## Loops -/

theorem foldl_keeps {α β : Type} (P : β → Prop) (f : β → α → β) (l : List α) (b : β) (h : P b)
    (step : ∀ b a, P b → P (f b a)) : P (l.foldl f b) := by
  induction l generalizing b with
  | nil => exact h
  | cons a l ih => exact ih _ (step b a h)

theorem CloseFrame.foldl {α : Type} {f : State → α → State} (l : List α) (s : State)
    (step : ∀ s a, CloseFrame s (f s a)) : CloseFrame s (l.foldl f s) :=
  foldl_keeps (CloseFrame s) f l s (.rfl' s) fun b a h => h.trans (step b a)

theorem CloseFrame.forHoses {f : Hose → State → State} (s : State)
    (step : ∀ h s, CloseFrame s (f h s)) : CloseFrame s (forHoses f s) :=
  CloseFrame.foldl _ s fun s h => step h s

theorem CloseFrame.forTanks {f : Tank → State → State} (s : State)
    (step : ∀ t s, CloseFrame s (f t s)) : CloseFrame s (forTanks f s) :=
  CloseFrame.foldl _ s fun s t => step t s

theorem CloseFrame.forFillsOn {f : Hose → State → State} (t : Tank) (s : State)
    (step : ∀ h s, CloseFrame s (f h s)) : CloseFrame s (forFillsOn t f s) :=
  CloseFrame.forHoses s fun h s => by
    split
    · exact step h s
    · exact .rfl' s

/-! ## The transmit queue -/

theorem LinkKept.rfl' (l : Link) : LinkKept l l := ⟨rfl, id⟩

theorem LinkKept.trans {l k m : Link} (a : LinkKept l k) (b : LinkKept k m) : LinkKept l m := by
  refine ⟨?_, fun h => b.2 (a.2 h)⟩
  rw [b.1, a.1]

theorem Link.enter_kept (l : Link) (f : TxFrame) : LinkKept l (l.enter f) := ⟨rfl, id⟩

/-- R144: an offer that becomes pending is not doubled. -/
theorem addPending_nodup (t : Tank) {l : List Tank} (h : l.Nodup) : (addPending t l).Nodup := by
  unfold addPending
  split
  · exact h
  · rename_i n
    simp only [List.contains_eq_mem, decide_eq_true_eq] at n
    rw [List.nodup_append]
    refine ⟨h, by simp, ?_⟩
    intro a ha b hb
    rw [List.mem_singleton.mp hb]
    exact fun e => n (e ▸ ha)

theorem Link.pendsOnce_iff (l : Link) :
    l.pendsOnce = true ↔ l.pendPump.Nodup ∧ l.pendGauge.Nodup := by
  simp [Link.pendsOnce]

theorem Link.offer_pump_kept (l : Link) (t : Tank) (p : PumpState) (r : Option LockReason) :
    LinkKept l (l.offer (.pump t p r)) := by
  simp only [Link.offer]; split
  · exact ⟨rfl, id⟩
  · refine ⟨rfl, ?_⟩
    simp only [Link.pendsOnce_iff]
    exact fun h => ⟨addPending_nodup t h.1, h.2⟩

theorem Link.offer_gauge_kept (l : Link) (t : Tank) (g : GaugeFields) :
    LinkKept l (l.offer (.gauge t g)) := by
  simp only [Link.offer]; split
  · exact ⟨rfl, id⟩
  · refine ⟨rfl, ?_⟩
    simp only [Link.pendsOnce_iff]
    exact fun h => ⟨h.1, addPending_nodup t h.2⟩

theorem Link.offer_beacon_kept (l : Link) (b : BeaconFields) :
    LinkKept l (l.offer (.beacon b)) := by
  simp only [Link.offer]; split
  · exact ⟨rfl, id⟩
  · split <;> exact ⟨rfl, id⟩

theorem Link.offer_summary_kept (l : Link) (n : Nat) (f : SummaryFields) :
    LinkKept l (l.offer (.summary n f)) := by
  simp only [Link.offer]; split <;> exact ⟨rfl, id⟩

theorem State.enterPending_close (s : State) : CloseFrame s s.enterPending := by
  unfold State.enterPending
  split
  · split
    · unfold State.enterPump
      dsimp only
      refine .trans (.modLink (f := fun l => { l with pendPump := l.pendPump.tail })
        ⟨rfl, by
          simp only [Link.pendsOnce_iff]
          exact fun h => ⟨h.1.tail, h.2⟩⟩) ?_
      split
      · exact .rfl' _
      · exact .modLink ⟨rfl, id⟩
    · unfold State.enterGauge
      dsimp only
      refine .trans (.modLink (f := fun l => { l with pendGauge := l.pendGauge.tail })
        ⟨rfl, by
          simp only [Link.pendsOnce_iff]
          exact fun h => ⟨h.1, h.2.tail⟩⟩) ?_
      split
      · exact .rfl' _
      · exact .modLink ⟨rfl, id⟩
    · exact .modLink ⟨rfl, id⟩
    · exact .rfl' s
  · exact .rfl' s

theorem State.fillPlaces_close (s : State) : CloseFrame s s.fillPlaces :=
  CloseFrame.foldl _ s fun s _ => s.enterPending_close

theorem State.offerSummary_close (s : State) : CloseFrame s s.offerSummary := by
  unfold State.offerSummary
  split
  · split
    · exact .rfl' s
    · split
      · exact .modLink (Link.offer_summary_kept _ _ _)
      · exact .rfl' s
  · exact .rfl' s

theorem State.tidyQueue_close (s : State) : CloseFrame s s.tidyQueue :=
  s.fillPlaces_close.trans (State.offerSummary_close _)

/-! ## Jobs -/

theorem NvKept.trans {l k m : Nv} (a : NvKept l k) (b : NvKept k m) : NvKept l m := by
  unfold NvKept at *
  rw [b, a]

theorem State.beginJob_close (s : State) : CloseFrame s s.beginJob := by
  unfold State.beginJob
  split
  · unfold State.beginRecord
    split
    · split <;> exact .modNv rfl
    · exact .modNv rfl
    · exact .modNv rfl
    · exact .modNv rfl
  · exact .rfl' s

theorem State.offerJob_close (s : State) (j : Job) : CloseFrame s (s.offerJob j) := by
  unfold State.offerJob
  split
  · dsimp only
    split
    · exact .trans (.modNv (f := fun n => { n with queue := n.queue ++ [j] }) rfl)
        (State.beginJob_close _)
    · exact .modNv rfl
  · exact .modNv rfl

theorem State.leaveJob_close (s : State) : CloseFrame s s.leaveJob := by
  unfold State.leaveJob
  refine CloseFrame.trans (.modNv ?_) (State.beginJob_close _)
  split <;> rfl

theorem State.offerCheckpoint_close (s : State) (h : Hose) (e : Bool) (c : Checkpoint) :
    CloseFrame s (s.offerCheckpoint h e c) := by
  unfold State.offerCheckpoint
  split
  · exact .modNv rfl
  · exact s.offerJob_close _

theorem State.checkpointFill_close (s : State) (h : Hose) (e : Bool) :
    CloseFrame s (s.checkpointFill h e) := by
  unfold State.checkpointFill
  split
  · exact .rfl' s
  · exact s.offerCheckpoint_close _ _ _

theorem State.offerCreep_close (s : State) : CloseFrame s s.offerCreep := by
  unfold State.offerCreep
  split
  · split
    · exact .rfl' s
    · split
      · exact .rfl' s
      · exact (CloseFrame.modMeter rfl).trans (State.offerJob_close _ _)
  · exact .rfl' s

/-! ## Fills -/

theorem State.beginJob_hoses (s : State) : s.beginJob.hoses = s.hoses := by
  unfold State.beginJob State.beginRecord
  repeat' split
  all_goals rfl

theorem State.offerJob_hoses (s : State) (j : Job) : (s.offerJob j).hoses = s.hoses := by
  unfold State.offerJob
  dsimp only
  split
  · split
    · rw [State.beginJob_hoses, State.modNv_hoses]
    · rfl
  · rfl

theorem State.checkpointFill_hoses (s : State) (h : Hose) (e : Bool) :
    (s.checkpointFill h e).hoses = s.hoses := by
  unfold State.checkpointFill State.offerCheckpoint
  split
  · rfl
  · split
    · rfl
    · rw [State.offerJob_hoses]

theorem State.fill_congr {s t : State} (e : s.hoses = t.hoses) (h : Hose) : s.fill h = t.fill h := by
  unfold State.fill
  rw [e]

theorem State.syncNoFlow_close {s : State} {h : Hose} (d : (s.fill h).demands = true) :
    CloseFrame s (s.syncNoFlow h) :=
  .modFill rfl (fun n => by simp [d] at n) fun n => ⟨n, rfl⟩

theorem Fill.demands_of_flowState {f : Fill} {r : Int} {v : Nat} (e : f.state = flowState r v) :
    f.demands = true := by
  unfold Fill.demands
  rw [e]
  unfold flowState
  split <;> rfl

theorem State.enterFlowing_close {s : State} {h : Hose} (st : (s.fill h).state = .starting) :
    CloseFrame s (s.enterFlowing h) := by
  have d : (s.fill h).demands = true := by simp [Fill.demands, st]
  unfold State.enterFlowing
  dsimp only
  refine .trans (.modFill (h := h) ?_ ?_ ?_)
    (.trans (.modNv ?_) (.trans (State.checkpointFill_close _ h true) (State.syncNoFlow_close ?_)))
  · rfl
  · intro n; simp [d] at n
  · intro n; exact absurd st n
  · rfl
  · rw [State.fill_congr (State.checkpointFill_hoses _ _ _), State.modNv_fill,
      State.modFill_fill_self]
    exact Fill.demands_of_flowState rfl

theorem State.tryStart_close (s : State) (h : Hose) : CloseFrame s (s.tryStart h) := by
  unfold State.tryStart
  split
  · rename_i m
    refine State.enterFlowing_close ?_
    simp only [State.mayFlow, Bool.and_eq_true] at m
    simpa using m.1.1.1
  · exact .rfl' s

theorem State.startFills_close (s : State) : CloseFrame s s.startFills :=
  .forHoses s fun h s => s.tryStart_close h

theorem State.enterHold_close (s : State) (h : Hose) (c : HoldCause) :
    CloseFrame s (s.enterHold h c) := by
  unfold State.enterHold
  split
  · rename_i d
    have d' : (s.fill h).demands = true := by
      simp only [Fill.dispensing, Bool.or_eq_true] at d
      simp only [Fill.demands, Bool.or_eq_true]
      tauto
    refine .modFill ?_ (fun n => ?_) fun n => ⟨?_, ?_⟩
    · rfl
    · simp [d'] at n
    · simp
    · rfl
  · split
    · rename_i e
      refine .modFill ?_ (fun n => ?_) fun n => ⟨n, ?_⟩
      · rfl
      · simp [Fill.demands, e] at n
      · rfl
    · split
      · rename_i e
        refine .modFill ?_ (fun n => ?_) fun n => ⟨n, ?_⟩
        · rfl
        · simp [Fill.demands, e] at n
        · rfl
      · exact .rfl' s

theorem flowState_ne (r : Int) (v : Nat) : flowState r v ≠ .starting := by
  unfold flowState
  split <;> simp

theorem State.resume_close {s : State} {h : Hose} (e : (s.fill h).state = .held) :
    CloseFrame s (s.resume h) := by
  unfold State.resume
  dsimp only
  refine .trans (.modFill (h := h) ?_ (fun n => ?_) fun n => ⟨flowState_ne _ _, ?_⟩)
    (State.syncNoFlow_close ?_)
  · rfl
  · simp [Fill.demands, e] at n
  · rfl
  · rw [State.modFill_fill_self]
    exact Fill.demands_of_flowState rfl

theorem State.resumeIf_close {s : State} {h : Hose} (e : (s.fill h).state = .held) :
    CloseFrame s (if (s.fill h).holds.isEmpty then s.resume h else s) := by
  split
  · exact State.resume_close e
  · exact .rfl' s

theorem State.leaveHold_close (s : State) (h : Hose) (c : HoldCause) :
    CloseFrame s (s.leaveHold h c) := by
  unfold State.leaveHold
  split
  · rename_i e
    refine .trans (.modFill ?_ (fun n => ?_) fun n => ⟨n, ?_⟩) (State.resumeIf_close ?_)
    · rfl
    · simp [Fill.demands, e] at n
    · rfl
    · rw [State.modFill_fill_self]
      exact e
  · split
    · rename_i e
      refine .modFill ?_ (fun n => ?_) fun n => ⟨n, ?_⟩
      · rfl
      · simp [Fill.demands, e] at n
      · rfl
    · exact .rfl' s

/-! ## Pumps -/

theorem State.setPumpView_close (s : State) (t : Tank) (v : PumpView) :
    CloseFrame s (s.setPumpView t v) := by
  unfold State.setPumpView
  dsimp only
  split
  · exact (CloseFrame.modView s t _).trans
      (.forFillsOn t _ fun h s => s.enterHold_close h _)
  · split
    · exact (CloseFrame.modView s t _).trans
        (.forFillsOn t _ fun h s => s.leaveHold_close h _)
    · exact .modView s t _

theorem State.changePump_close (s : State) (t : Tank) (f : Pump → Pump) :
    CloseFrame s (s.changePump t f) := by
  unfold State.changePump
  dsimp only
  split
  · exact .modPump s t f
  · exact (CloseFrame.modPump s t f).trans
      ((CloseFrame.modLink (Link.offer_pump_kept _ _ _ _)).trans (State.setPumpView_close _ _ _))

theorem State.restPump_close (s : State) (t : Tank) : CloseFrame s (s.restPump t) :=
  s.changePump_close t _

theorem State.lockPump_close (s : State) (t : Tank) (r : LockReason) :
    CloseFrame s (s.lockPump t r) :=
  (s.changePump_close t _).trans (.raise _ _)

theorem State.confirmPump_close (s : State) (t : Tank) : CloseFrame s (s.confirmPump t) := by
  unfold State.confirmPump
  dsimp only
  split
  · exact s.changePump_close t _
  · split
    · exact (s.changePump_close t _).trans (State.changePump_close _ t _)
    · exact s.changePump_close t _

theorem State.startPump_close (s : State) (t : Tank) : CloseFrame s (s.startPump t) := by
  unfold State.startPump
  dsimp only
  split
  · exact (s.changePump_close t _).trans (State.confirmPump_close _ t)
  · exact s.changePump_close t _

theorem State.reactPump_close (s : State) (t : Tank) : CloseFrame s (s.reactPump t) := by
  unfold State.reactPump
  split
  · exact .rfl' s
  · split
    · split
      · exact s.startPump_close t
      · exact .rfl' s
    · split
      · exact s.changePump_close t _
      · exact .rfl' s
    · split
      · exact .rfl' s
      · exact s.changePump_close t _
    all_goals exact .rfl' s

theorem State.endRest_close (s : State) (t : Tank) : CloseFrame s (s.endRest t) :=
  (s.changePump_close t _).trans (State.reactPump_close _ t)

theorem State.forcePump_close (s : State) (t : Tank) : CloseFrame s (s.forcePump t) := by
  unfold State.forcePump
  split
  · exact .rfl' s
  · split
    · exact s.restPump_close t
    · exact .rfl' s

theorem State.forcePumps_close (s : State) : CloseFrame s s.forcePumps :=
  .forTanks s fun t s => s.forcePump_close t

theorem State.releasePumps_close (s : State) : CloseFrame s s.releasePumps :=
  .forTanks s fun t s => s.reactPump_close t

theorem State.stockMovesPump_close (s : State) (t : Tank) (low : Bool) :
    CloseFrame s (s.stockMovesPump t low) := by
  unfold State.stockMovesPump
  split
  · exact .rfl' s
  · split
    · split
      · exact .rfl' s
      · exact s.lockPump_close t _
    · split
      · exact s.restPump_close t
      · exact s.reactPump_close t

theorem State.syncDemand_close (s : State) (t : Tank) : CloseFrame s (s.syncDemand t) := by
  unfold State.syncDemand
  split
  · exact .rfl' s
  · split
    · exact .rfl' s
    · exact (CloseFrame.modPump s t _).trans (State.reactPump_close _ t)

theorem State.syncDemands_close (s : State) : CloseFrame s s.syncDemands :=
  .forTanks s fun t s => s.syncDemand_close t

theorem State.dropDemand_close (s : State) (t : Tank) (p : Station) :
    CloseFrame s (s.dropDemand t p) := by
  unfold State.dropDemand
  split
  · exact .rfl' s
  · split
    · exact .rfl' s
    · exact (CloseFrame.modPump s t _).trans (State.reactPump_close _ t)

theorem State.takeDemand_close (s : State) (t : Tank) (p : Station) :
    CloseFrame s (s.takeDemand t p) :=
  (CloseFrame.modPump s t _).trans (State.reactPump_close _ t)

/-! ## Tanks -/

theorem State.changeView_close (s : State) (t : Tank) (f : TankView → TankView) :
    CloseFrame s (s.changeView t f) :=
  (CloseFrame.modView s t f).trans (.raiseIf _ _ _)

theorem State.offerGauge_close (s : State) (t : Tank) : CloseFrame s (s.offerGauge t) := by
  unfold State.offerGauge
  split
  · exact .rfl' s
  · split
    · exact (CloseFrame.modLink (Link.offer_gauge_kept _ _ _)).trans
        ((State.changeView_close _ t _).trans (.modHome _ t _))
    · exact .rfl' s

theorem State.commitHome_close (s : State) (t : Tank) (u : HomeUnit) (due : Bool) :
    CloseFrame s (s.commitHome t u due) := by
  unfold State.commitHome
  split
  · exact .rfl' s
  · rename_i old _
    dsimp only
    have a : ∀ s' : State,
        CloseFrame s' (if gaugeTells old u || due then s'.offerGauge t else s') := fun s' => by
      split
      · exact s'.offerGauge_close t
      · exact .rfl' s'
    have b := (CloseFrame.modHome s t fun _ => u).trans (.raiseIf _ (gaugeTells old u) .stock)
    refine b.trans ((a _).trans ?_)
    generalize (if gaugeTells old u || due then _ else _ : State) = k
    split
    · exact .rfl' _
    · exact State.stockMovesPump_close _ t _

theorem State.drawTank_close (s : State) (t : Tank) (d : Nat) : CloseFrame s (s.drawTank t d) := by
  unfold State.drawTank
  dsimp only
  split
  · exact s.changeView_close t _
  · exact (s.changeView_close t _).trans (State.commitHome_close _ t _ _)

theorem State.judgeTotal_close (s : State) (t : Tank) (l : Option U32) (x : U32) (c : Bool) :
    CloseFrame s (s.judgeTotal t l x c) := by
  unfold State.judgeTotal
  split
  · exact .rfl' s
  · split
    · exact s.drawTank_close t _
    · split
      · exact (CloseFrame.modView s t _).trans (.raise _ _)
      · exact .rfl' s

theorem State.takeTotal_close (s : State) (p : Station) (t : Tank) (x : U32) (c : Bool) :
    CloseFrame s (s.takeTotal p t x c) := by
  unfold State.takeTotal
  dsimp only
  exact (s.judgeTotal_close t _ x c).trans (.modView _ t _)

theorem State.takeOwnTotal_close (s : State) (t : Tank) (x : U32) :
    CloseFrame s (s.takeOwnTotal t x) := by
  unfold State.takeOwnTotal
  split
  · exact s.takeTotal_close _ t x _
  · exact (s.judgeTotal_close t _ x false).trans (.modView _ t _)

/-! ## Beacons and the visit -/

theorem State.formBeacon_close (s : State) : CloseFrame s s.formBeacon := by
  unfold State.formBeacon
  dsimp only
  have a : CloseFrame s (s.takeOwnTotals (s.drawnTanks.map fun t => (t, s.drawTotal t))) :=
    CloseFrame.foldl _ s fun s e => s.takeOwnTotal_close e.1 e.2
  split
  · refine a.trans (.trans (.modLink ?_) (.modLink (Link.offer_beacon_kept _ _)))
    exact ⟨rfl, id⟩
  · exact a.trans (.modLink ⟨rfl, id⟩)

theorem State.earlyBeacon_close (before s : State) :
    CloseFrame s (State.earlyBeacon before s) := by
  unfold State.earlyBeacon
  split
  · exact s.formBeacon_close
  · exact .rfl' s

theorem State.visitToNone_still (s : State) : StillFrame s s.visitToNone := by
  unfold State.visitToNone
  dsimp only
  constructor <;> (repeat' split) <;> rfl

theorem State.visitToNone_close {s : State} (e : s.visit.state = .ending) :
    CloseFrame s s.visitToNone where
  still := s.visitToNone_still
  tag := by unfold State.visitToNone; dsimp only; (repeat' split) <;> rfl
  shut := by unfold State.visitToNone; dsimp only; (repeat' split) <;> rfl
  flags := by
    have h : s.visitToNone.flags = s.flags ||| EventFlag.visit.mask := by
      unfold State.visitToNone; dsimp only; (repeat' split) <;> rfl
    rw [h]
    exact (CloseFrame.raise s .visit).flags
  cfg := by unfold State.visitToNone; dsimp only; (repeat' split) <;> rfl
  nv := by unfold State.visitToNone; dsimp only; (repeat' split) <;> rfl
  link := by unfold State.visitToNone; dsimp only; (repeat' split) <;> rfl
  pends := by unfold State.visitToNone; dsimp only; (repeat' split) <;> exact id
  accounts := by unfold State.visitToNone; dsimp only; (repeat' split) <;> rfl
  visit := fun n => absurd e n
  lane := fun n => by
    unfold State.visitToNone; dsimp only; (repeat' split) <;> exact ⟨rfl, n⟩
  hose := fun h => by unfold State.visitToNone; dsimp only; (repeat' split) <;> rfl
  fill := fun h => by unfold State.visitToNone; dsimp only; (repeat' split) <;> rfl
  quiet := fun h _ => by unfold State.visitToNone; dsimp only; (repeat' split) <;> rfl
  volume := fun h n => by
    unfold State.visitToNone; dsimp only; (repeat' split) <;> exact ⟨n, rfl⟩

theorem State.followVisit_close (s : State) : CloseFrame s s.followVisit := by
  unfold State.followVisit
  split
  · rename_i e
    split
    · exact State.visitToNone_close e
    · exact .rfl' s
  · rename_i e
    exact
      { still := by constructor <;> rfl
        tag := rfl
        shut := rfl
        flags := by simp
        cfg := rfl
        nv := rfl
        link := rfl
        pends := id
        accounts := rfl
        visit := fun _ => ⟨rfl, rfl, fun n => absurd e n⟩
        lane := fun h => ⟨rfl, h⟩
        hose := fun _ => rfl
        fill := fun _ => rfl
        quiet := fun _ _ => rfl
        volume := fun _ h => ⟨h, rfl⟩ }
  all_goals exact .rfl' s

theorem State.followLane_close (s : State) : CloseFrame s s.followLane := by
  unfold State.followLane
  split
  · rename_i c
    simp only [Bool.and_eq_true] at c
    exact
      { still := by constructor <;> rfl
        tag := rfl
        shut := rfl
        flags := by simp
        cfg := rfl
        nv := rfl
        link := rfl
        pends := id
        accounts := rfl
        visit := fun _ => ⟨rfl, rfl, fun _ => rfl⟩
        lane := fun h => by simp [c.1] at h
        hose := fun _ => rfl
        fill := fun _ => rfl
        quiet := fun _ _ => rfl
        volume := fun _ h => ⟨h, rfl⟩ }
  · exact .rfl' s

theorem State.followReload_close (s : State) : CloseFrame s s.followReload := by
  unfold State.followReload
  split
  · exact .modCfg rfl
  · exact .rfl' s

end Sys2Proof.Machine
end

