-- ==== Sys2Proof/Laws/Fills.lean ====
section
/-! SUPPORT. What the shared steps of a fill can do: the no-flow timer (R32), a ramp tick (R41), a
member that leaves the hold cause set (R33, R34). -/

namespace Sys2Proof.Machine

/-- R32: in FLOWING or SLOWING with the valve released and the command at or above the minimum the
timer runs on, or starts at its full length. -/
theorem noFlowTimer_runs {f : Fill} {low full : Nat} (hd : f.dispensing = true)
    (hr : f.released = true) (hc : low ≤ f.valveCmd) :
    noFlowTimer f low full = some (f.noFlowT.getD full) := by
  simp only [noFlowTimer, hd, hr, hc, decide_true, Bool.and_self, if_true]
  cases f.noFlowT <;> rfl

/-- R32: in every other case it is stopped. -/
theorem noFlowTimer_stopped {f : Fill} {low full : Nat}
    (h : f.dispensing = false ∨ f.released = false ∨ f.valveCmd < low) :
    noFlowTimer f low full = none := by
  unfold noFlowTimer
  split
  · rename_i hc
    simp only [Bool.and_eq_true, decide_eq_true_eq] at hc
    rcases h with h | h | h
    · simp [h] at hc
    · simp [h] at hc
    · omega
  · rfl

/-- R33, R34: a member leaves the set of a fill in HELD. -/
theorem State.leaveHold_held {s : State} {h : Hose} (c : HoldCause)
    (hs : (s.fill h).state = .held) :
    HoldLeft s h ((s.leaveHold h c).fill h) ((s.fill h).holds.remove c)
      (if c = .tagLost then none else (s.fill h).tagLossT) := by
  have fills : ∀ (s : State) (f : Fill → Fill), (s.modFill h f).fill h = f (s.fill h) := by
    intro s f
    simp [State.fill, State.modFill, State.modHose]
  by_cases he : ((s.fill h).holds.remove c).isEmpty = true
  · have e : (s.leaveHold h c).fill h =
        let st := flowState (s.fill h).remaining (s.hoseCfg h).slowDown.toNat
        let f : Fill := { s.fill h with
          state := st, holds := (s.fill h).holds.remove c, rampTarget := s.valveTarget h st,
          holdT := none, tagLossT := none }
        { f with noFlowT := noFlowTimer f (s.minOpening h) (s.noFlowMs h) } := by
      simp only [State.leaveHold, hs, if_true, fills, he, State.resume, State.syncNoFlow]
      rfl
    have hd : ∀ r n, (flowState r n == .flowing || flowState r n == .slowing) = true := by
      intro r n
      unfold flowState
      split <;> rfl
    rw [e]
    refine ⟨?_, ?_, ?_, ?_, ?_⟩
    · intro h'
      simp [he] at h'
    · intro _
      rfl
    · intro _ hr
      simp only [flowState, hr, if_true]
      exact ⟨trivial, rfl⟩
    · intro _ hr
      simp only [flowState, Int.not_lt.mpr hr, if_false]
      exact ⟨trivial, rfl⟩
    · intro _
      by_cases hc : (s.fill h).released = true ∧ s.minOpening h ≤ (s.fill h).valveCmd
      · rw [if_pos hc]
        exact noFlowTimer_runs (hd ..) hc.1 hc.2
      · rw [if_neg hc]
        refine noFlowTimer_stopped (.inr ?_)
        rcases not_and_or.mp hc with h' | h'
        · exact .inl (by simpa using h')
        · exact .inr (by simpa using h')
  · have e : (s.leaveHold h c).fill h =
        { s.fill h with
          holds := (s.fill h).holds.remove c,
          tagLossT := if c = .tagLost then none else (s.fill h).tagLossT } := by
      simp only [State.leaveHold, hs, if_true, fills, he, Bool.false_eq_true, if_false]
    rw [e]
    exact ⟨fun _ => rfl, fun h' => absurd h' he, fun h' => absurd h' he, fun h' => absurd h' he,
      fun h' => absurd h' he⟩

end Sys2Proof.Machine
end

