-- ==== Sys2Proof/Laws/Sections.lean ====
section
/-! SUPPORT. What the values of the configuration are while their section is valid, and the range they
keep while it is not (logs 46, 58, 70). -/

namespace Sys2Proof.Machine

variable {s : State}

@[simp] theorem State.alpha_of_valid (h : s.sectionValid .products = true) (p : Fin 16)
    (product : Byte) (hp : productOf product = some p) :
    s.alpha product = s.cfg.data.products[p].alpha.toNat := by
  simp [State.alpha, h, hp]

@[simp] theorem State.isLube_of_valid (h : s.sectionValid .products = true) (p : Fin 16)
    (product : Byte) (hp : productOf product = some p) :
    s.isLube product = (s.cfg.data.products[p].kind == 2) := by
  simp [State.isLube, h, hp]

@[simp] theorem State.lubeSlotNow_of_valid (h : s.sectionValid .hoses = true) (x : Hose) :
    s.lubeSlotNow x = lubeSlotOf (s.hoseCfg x).lubeSlot := by simp [State.lubeSlotNow, h]

@[simp] theorem State.minOpening_of_valid (h : s.sectionValid .hoses = true) (x : Hose) :
    s.minOpening x = (s.hoseCfg x).minimum.toNat := by simp [State.minOpening, h]

@[simp] theorem State.stepDown_of_valid (h : s.sectionValid .hoses = true) (x : Hose) :
    s.stepDown x = (s.hoseCfg x).stepDown.toNat := by simp [State.stepDown, h]

theorem State.minOpening_le (h : s.sectionValid .hoses = false) (x : Hose) :
    s.minOpening x ≤ 1000 := by
  simp only [State.minOpening, h, Bool.false_eq_true, if_false]; omega

theorem State.stepDown_range (h : s.sectionValid .hoses = false) (x : Hose) :
    1 ≤ s.stepDown x ∧ s.stepDown x ≤ 1000 := by
  simp only [State.stepDown, h, Bool.false_eq_true, if_false]; omega

@[simp] theorem State.keffFor_of_valid (h : s.sectionValid .hoses = true) (x : Hose) (b : Fin 4) :
    s.keffFor x b = keffOf (s.k1000 x) (s.correction x b) := by simp [State.keffFor, h]

theorem State.keffFor_range (h : s.sectionValid .hoses = false) (x : Hose) (b : Fin 4)
    (ho : s.hoses[x].override = none) : 950 ≤ s.keffFor x b ∧ s.keffFor x b ≤ 10499999 := by
  simp only [State.keffFor, h, ho, Option.isSome_none, Bool.or_self, Bool.false_eq_true, if_false,
    Config.keffMin]
  omega

@[simp] theorem State.fuelDefault_of_valid (h : s.sectionValid .rules = true) (c : MachineClass) :
    s.fuelDefault c = s.cfg.data.rules.fuelDefault[c.place].toNat := by simp [State.fuelDefault, h]

@[simp] theorem State.lubeDefault_of_valid (h : s.sectionValid .rules = true) (x : LubeSlot) :
    s.lubeDefault x = s.cfg.data.rules.lubeDefault[x].toNat := by simp [State.lubeDefault, h]

/-! ## The transmit queue -/

/-- R145: a frame that enters the queue stands last, and a beacon is noted. -/
@[simp] theorem Link.enter_txQueue (l : Link) (f : TxFrame) :
    (l.enter f).txQueue = l.txQueue ++ [{ frame := f, sending := false }] := rfl

@[simp] theorem Link.enter_newBeacon (l : Link) (f : TxFrame) :
    (l.enter f).newBeacon = (l.newBeacon || f.kind == 7) := rfl

end Sys2Proof.Machine
end

