-- ==== Sys2Proof/Laws/Load.lean ====
section
/-! SUPPORT. What the steps of a load can do to tanks and hoses (R4, R18, R85, R106, R117): one lemma for
each shared operation, and what a pass over all tanks or hoses does to one of them. -/

namespace Sys2Proof.Machine

/-! ## Passes over all tanks and all hoses -/

/-- A pass over all indices whose step at `t` acts on the part `P t` alone, by what the context `C` holds,
acts so on the part of each index. -/
theorem indices_at {n : Nat} {α β : Type} {f : Fin n → State → State} {P : Fin n → State → α}
    {C : State → β} {g : Fin n → β → α → α} (hC : ∀ t s, C (f t s) = C s)
    (hne : ∀ t k s, k ≠ t → P k (f t s) = P k s) (hat : ∀ t s, P t (f t s) = g t (C s) (P t s))
    (s : State) : ∀ t, P t ((indices n).foldl (fun s t => f t s) s) = g t (C s) (P t s) := by
  have key : ∀ (l : List (Fin n)) (s : State), l.Nodup →
      (∀ t ∉ l, P t (l.foldl (fun s t => f t s) s) = P t s) ∧
      ∀ t ∈ l, P t (l.foldl (fun s t => f t s) s) = g t (C s) (P t s) := by
    intro l
    induction l with
    | nil => intro s _; simp
    | cons a l ih =>
      intro s hl
      obtain ⟨ha, hl⟩ := List.nodup_cons.mp hl
      obtain ⟨h2, h3⟩ := ih (f a s) hl
      simp only [List.foldl_cons]
      refine ⟨?_, ?_⟩
      · intro t ht
        rw [List.mem_cons, not_or] at ht
        rw [h2 t ht.2, hne a t s ht.1]
      · intro t ht
        rcases List.mem_cons.mp ht with rfl | ht
        · rw [h2 t ha, hat]
        · have : t ≠ a := fun e => ha (e ▸ ht)
          rw [h3 t ht, hC, hne a t s this]
  exact fun t => (key (indices n) s (List.nodup_finRange n)).2 t (List.mem_finRange t)

/-- A pass over tanks acts on the part of each tank. -/
theorem forTanks_at {α β : Type} {f : Tank → State → State} {P : Tank → State → α} {C : State → β}
    {g : Tank → β → α → α} (hC : ∀ t s, C (f t s) = C s)
    (hne : ∀ t k s, k ≠ t → P k (f t s) = P k s) (hat : ∀ t s, P t (f t s) = g t (C s) (P t s))
    (s : State) (t : Tank) : P t (forTanks f s) = g t (C s) (P t s) := indices_at hC hne hat s t

/-- A pass over hoses acts on the part of each hose. -/
theorem forHoses_at {α β : Type} {f : Hose → State → State} {P : Hose → State → α} {C : State → β}
    {g : Hose → β → α → α} (hC : ∀ h s, C (f h s) = C s)
    (hne : ∀ h k s, k ≠ h → P k (f h s) = P k s) (hat : ∀ h s, P h (f h s) = g h (C s) (P h s))
    (s : State) (h : Hose) : P h (forHoses f s) = g h (C s) (P h s) := indices_at hC hne hat s h

/-- A pass over tanks keeps what each of its steps keeps. -/
theorem forTanks_keeps {f : Tank → State → State} (P : State → Prop) (s : State) (h : P s)
    (step : ∀ s t, P s → P (f t s)) : P (forTanks f s) :=
  foldl_keeps P (fun s t => f t s) (indices 8) s h step

/-- A pass over hoses keeps what each of its steps keeps. -/
theorem forHoses_keeps {f : Hose → State → State} (P : State → Prop) (s : State) (h : P s)
    (step : ∀ s k, P s → P (f k s)) : P (forHoses f s) :=
  foldl_keeps P (fun s k => f k s) (indices 4) s h step

/-! ## Hold causes -/

/-- PUMP_LOST has entered or left fills (R33): nothing but fills changed, and none came to wait in ARMED
or STARTING or left it. -/
structure HoldsMoved (s u : State) : Prop where
  rest : u = { s with hoses := u.hoses }
  hose : ∀ h : Hose, u.hoses[h] = { s.hoses[h] with fill := u.fill h }
  waits : ∀ h : Hose, (u.fill h).waits = (s.fill h).waits

theorem HoldsMoved.rfl' (s : State) : HoldsMoved s s := ⟨rfl, fun _ => rfl, fun _ => rfl⟩

theorem HoldsMoved.trans {s t u : State} (a : HoldsMoved s t) (b : HoldsMoved t u) :
    HoldsMoved s u := by
  refine ⟨?_, fun h => ?_, fun h => (b.waits h).trans (a.waits h)⟩
  · rw [b.rest, a.rest]
  · rw [b.hose, a.hose]

/-- A fill changed on its own, with no wait begun or ended. -/
theorem HoldsMoved.modFill {s : State} {h : Hose} {f : Fill → Fill}
    (hw : (f (s.fill h)).waits = (s.fill h).waits) : HoldsMoved s (s.modFill h f) := by
  refine ⟨rfl, fun k => ?_, fun k => ?_⟩
  · by_cases e : h = k
    · subst e; simp [State.modFill, State.modHose, State.fill]
    · simp [State.modFill, State.modHose, State.fill, e]
  · by_cases e : h = k
    · subst e; simpa [State.modFill, State.modHose, State.fill] using hw
    · simp [State.modFill, State.modHose, State.fill, e]

theorem ite_cases {α : Type} (P : α → Prop) {c : Prop} [Decidable c] {a b : α} (ha : P a)
    (hb : P b) : P (if c then a else b) := by
  split
  · exact ha
  · exact hb

theorem flowState_waits (f : Fill) (r : Int) (n : Nat) (hf : f.state = flowState r n) :
    f.waits = false := by
  unfold flowState at hf
  split at hf <;> simp [Fill.waits, hf]

/-- R33: PUMP_LOST enters a fill. -/
theorem State.enterHold_moves (s : State) (h : Hose) : HoldsMoved s (s.enterHold h .pumpLost) := by
  unfold State.enterHold
  split
  · rename_i hd
    refine .modFill ?_
    revert hd
    unfold Fill.dispensing Fill.waits
    dsimp only
    cases (s.fill h).state <;> simp <;> rfl
  · split
    · exact .modFill rfl
    · split
      · rename_i hc
        simp at hc
      · exact .rfl' s

/-- R34: a fill that does not wait resumes. -/
theorem State.resume_moves {s : State} {h : Hose} (hw : (s.fill h).waits = false) :
    HoldsMoved s (s.resume h) := by
  unfold State.resume State.syncNoFlow
  dsimp only
  refine HoldsMoved.trans (.modFill ?_) (.modFill rfl)
  rw [hw]
  exact flowState_waits _ _ _ rfl

/-- R33, R34: PUMP_LOST leaves a fill. -/
theorem State.leaveHold_moves (s : State) (h : Hose) : HoldsMoved s (s.leaveHold h .pumpLost) := by
  by_cases hs : (s.fill h).state = .held
  · have hw : (s.fill h).waits = false := by simp [Fill.waits, hs]
    have a : HoldsMoved s (s.modFill h fun f => { f with
        holds := f.holds.remove .pumpLost,
        tagLossT := if HoldCause.pumpLost = .tagLost then none else f.tagLossT }) := .modFill rfl
    unfold State.leaveHold
    rw [if_pos hs]
    refine ite_cases (HoldsMoved s) (a.trans (State.resume_moves ?_)) a
    rw [a.waits, hw]
  · unfold State.leaveHold
    rw [if_neg hs, if_neg (by simp)]
    exact .rfl' s

/-- R114: a pump view changes: the view alone, and PUMP_LOST of the fills on the tank. -/
theorem State.setPumpView_moves (s : State) (t : Tank) (v : PumpView) :
    HoldsMoved (s.modView t fun x => { x with pump := v }) (s.setPumpView t v) := by
  have on : ∀ (f : Hose → State → State) (s : State), (∀ h s, HoldsMoved s (f h s)) →
      HoldsMoved s (forFillsOn t f s) := by
    intro f s hf
    refine forHoses_keeps (HoldsMoved s) s (.rfl' s) fun u k hu => hu.trans ?_
    split
    · exact hf k u
    · exact .rfl' u
  unfold State.setPumpView
  dsimp only
  split
  · exact on _ _ fun h s => s.enterHold_moves h
  · split
    · exact on _ _ fun h s => s.leaveHold_moves h
    · exact .rfl' _

/-! ## The steps of a load -/

/-- R4, R18, R176: a hose at a load. -/
theorem State.loadHose_eq (s : State) (h : Hose) :
    s.loadHose h = { s with hoses := put s.hoses h { s.hoses[h] with
      override := none, meter := { s.meter h with
        keff := (s.modHose h fun u => { u with override := none }).keffFor h (s.meter h).band,
        mismatchRun := if s.sectionValid .hoses && s.sectionValid .products then
          (s.meter h).mismatchRun else 0,
        excessRun := if s.sectionValid .hoses && s.sectionValid .products then
          (s.meter h).excessRun else 0 } } } := by
  simp [State.loadHose, State.modMeter, State.modHose, State.meter]

/-- R85: the view of a tank that has left the homed tank list, its last GAUGE items kept (log 50). -/
def TankView.emptied (v : TankView) : TankView :=
  { v with stock := none, state := .gaugeFault, degraded := false, noValue := true,
           pump := .unknown }

/-- R85, R93: a view is emptied. -/
theorem State.emptyView_moves (s : State) (t : Tank) :
    HoldsMoved { s with
      views := put s.views t s.views[t].emptied,
      flags := if s.views[t].state = .gaugeFault then s.flags else s.flags ||| EventFlag.stock.mask }
      (s.emptyView t) := by
  have m := State.setPumpView_moves (s.changeView t fun v =>
    { v with stock := none, state := .gaugeFault, degraded := false, noValue := true }) t .unknown
  have e : (s.changeView t fun v =>
      { v with stock := none, state := .gaugeFault, degraded := false, noValue := true }).modView t
        (fun x => { x with pump := .unknown }) = { s with
      views := put s.views t s.views[t].emptied,
      flags := if s.views[t].state = .gaugeFault then s.flags
        else s.flags ||| EventFlag.stock.mask } := by
    unfold State.changeView State.raiseIf
    cases hv : s.views[t].state <;>
      simp [State.modView, State.raise, TankView.emptied]
  rw [e] at m
  exact m

variable {s : State} {t : Tank}

/-- R85: the unit of a tank that stays homed is kept. -/
theorem State.loadHome_kept {u : HomeUnit} (hu : s.home[t] = some u) (hn : s.homedNow t = true) :
    s.loadHome t = s := by
  unfold State.loadHome
  rw [hu]
  simp [hn]

/-- R85: the unit of a tank that leaves the list is removed. -/
theorem State.loadHome_removed {u : HomeUnit} (hu : s.home[t] = some u)
    (hn : s.homedNow t = false) :
    HoldsMoved { s with
      home := put s.home t none,
      nv := { s.nv with reservations := s.nv.reservations - if u.receipt.isSome then 1 else 0 },
      shut := { s.shut with bund := put s.shut.bund t s.shut.bund[t].leave },
      views := put s.views t s.views[t].emptied,
      flags := if s.views[t].state = .gaugeFault then s.flags else s.flags ||| EventFlag.stock.mask }
      (s.loadHome t) := by
  have e : s.loadHome t = State.emptyView { s with
      home := put s.home t none,
      nv := { s.nv with reservations := s.nv.reservations - if u.receipt.isSome then 1 else 0 },
      shut := { s.shut with bund := put s.shut.bund t s.shut.bund[t].leave } } t := by
    unfold State.loadHome
    rw [hu]
    simp only [hn, Bool.false_eq_true, if_false, State.removeHome]
    cases u.receipt.isSome <;> rfl
  rw [e]
  exact State.emptyView_moves { s with
    home := put s.home t none,
    nv := { s.nv with reservations := s.nv.reservations - if u.receipt.isSome then 1 else 0 },
    shut := { s.shut with bund := put s.shut.bund t s.shut.bund[t].leave } } t

/-- R85, R92: the unit of a tank that joins the list is created. -/
theorem State.loadHome_created (hu : s.home[t] = none) (hn : s.homedNow t = true) :
    s.loadHome t = { s with
      home := put s.home t (some { HomeUnit.reset with cfg := s.tankCfg t }),
      shut := { s.shut with bund := put s.shut.bund t s.shut.bund[t].join } } := by
  unfold State.loadHome
  rw [hu]
  simp only [hn, if_true]
  rfl

/-- R85: a tank that is not fitted and not homed keeps no stock in its view. -/
theorem State.loadHome_unfitted (hu : s.home[t] = none) (hn : s.homedNow t = false)
    (hf : s.cfg.homeOf[t] = none) : s.loadHome t = s.emptyView t := by
  unfold State.loadHome
  rw [hu]
  simp [hn, hf]

/-- A tank of another station. -/
theorem State.loadHome_remote (hu : s.home[t] = none) (hn : s.homedNow t = false)
    (hf : s.cfg.homeOf[t] ≠ none) : s.loadHome t = s := by
  unfold State.loadHome
  rw [hu]
  simp only [hn, Bool.false_eq_true, if_false]
  exact if_neg hf

/-- R106: a controller runs after a load. -/
def State.pumpRuns (s : State) (t : Tank) : Bool := s.sectionValid .station && s.isHome t

/-- R106: the controller of a tank that stays homed is kept. -/
theorem State.loadPump_kept {p : Pump} (hr : s.pumpRuns t = true) (hp : s.pumps[t] = some p) :
    s.loadPump t = s := by
  unfold State.loadPump
  rw [hp]
  rw [State.pumpRuns] at hr
  simp [hr]

/-- R106, R113: a new controller. -/
theorem State.loadPump_created (hr : s.pumpRuns t = true) (hp : s.pumps[t] = none) :
    HoldsMoved { s with
      pumps := put s.pumps t (some Pump.reset),
      link := s.link.offer (.pump t .resting none),
      views := put s.views t { s.views[t] with pump := .known .resting none } } (s.loadPump t) := by
  rw [State.pumpRuns] at hr
  have e : s.loadPump t = ({ s with
      pumps := put s.pumps t (some Pump.reset),
      link := s.link.offer (.pump t .resting none) }).setPumpView t (.known .resting none) := by
    unfold State.loadPump
    rw [hp]
    simp only [hr, if_true]
    unfold State.changePump
    simp [State.modPump, State.modLink, Pump.reset]
  rw [e]
  exact State.setPumpView_moves { s with
    pumps := put s.pumps t (some Pump.reset),
    link := s.link.offer (.pump t .resting none) } t _

/-- R106: a controller ends. -/
theorem State.loadPump_removed {p : Pump} (hr : s.pumpRuns t = false) (hp : s.pumps[t] = some p) :
    HoldsMoved { s with
      pumps := put s.pumps t none,
      views := put s.views t { s.views[t] with pump := .unknown } } (s.loadPump t) := by
  rw [State.pumpRuns] at hr
  have e : s.loadPump t = ({ s with pumps := put s.pumps t none }).setPumpView t .unknown := by
    unfold State.loadPump
    rw [hp]
    simp [hr]
  rw [e]
  exact State.setPumpView_moves { s with pumps := put s.pumps t none } t _

/-- R106: no controller ran and none runs. -/
theorem State.loadPump_absent (hr : s.pumpRuns t = false) (hp : s.pumps[t] = none) :
    s.loadPump t = s := by
  unfold State.loadPump
  rw [hp]
  rw [State.pumpRuns] at hr
  simp [hr]

end Sys2Proof.Machine
end

