-- ==== Sys2Proof/Laws/Store.lean ====
section
/-! SUPPORT. What a read of words with errors does (R164), and what a checkpoint write leaves of the
high-water, the newer copies and the next sequence number, and what that number is above (R26, R154,
R156, R165). -/

namespace Sys2Proof.Machine

/-- One word read with its error (R164). -/
theorem State.readError_eq (s : State) (e : StoreError) :
    s.readError e =
      if e.double then
        { s with
          nv := { s.nv with dc := Nat.min (s.nv.dc + 1) 15,
                            dcCap := some (s.nv.dcCap.getD (e.area, e.word)) },
          flags := s.flags ||| EventFlag.nv.mask }
      else
        { s with
          nv := { s.nv with sc := Nat.min (s.nv.sc + 1) 15,
                            scCap := some (s.nv.scCap.getD (e.area, e.word)) },
          flags := if s.nv.scCap = none then s.flags ||| EventFlag.nv.mask else s.flags } := by
  have key : ∀ (o : Option (Area × Nat)) (x : Area × Nat), (o <|> some x) = some (o.getD x) := by
    intro o x
    cases o <;> rfl
  unfold State.readError State.modNv
  simp only [key]
  split
  · rfl
  · cases h : s.nv.scCap <;> rfl

/-- Words read one after another, by their single and their double errors (R164). -/
theorem State.readErrors_eq (l : List StoreError) (s : State) :
    l.foldl State.readError s = { s with
      nv := { s.nv with
        sc := (match l.filter fun e => !e.double with
          | [] => s.nv.sc
          | _ :: r => Nat.min (s.nv.sc + (r.length + 1)) 15),
        scCap := (match l.filter fun e => !e.double with
          | [] => s.nv.scCap
          | e :: _ => some (s.nv.scCap.getD (e.area, e.word))),
        dc := (match l.filter fun e => e.double with
          | [] => s.nv.dc
          | _ :: r => Nat.min (s.nv.dc + (r.length + 1)) 15),
        dcCap := (match l.filter fun e => e.double with
          | [] => s.nv.dcCap
          | e :: _ => some (s.nv.dcCap.getD (e.area, e.word))) },
      flags := if ∃ e ∈ l, e.double = true ∨ s.nv.scCap = none then s.flags ||| EventFlag.nv.mask
        else s.flags } := by
  have sum : ∀ n k, Nat.min (Nat.min (n + 1) 15 + (k + 1)) 15 = Nat.min (n + (k + 1 + 1)) 15 := by
    intro n k
    simp only [Nat.min_def]
    split <;> split <;> split <;> omega
  have orSame : ∀ a b : BitVec 12, a ||| b ||| b = a ||| b := by
    intro a b
    rw [BitVec.or_assoc, BitVec.or_self]
  induction l generalizing s with
  | nil => simp
  | cons e l ih =>
    rw [List.foldl_cons, ih, State.readError_eq]
    cases hd : e.double
    · cases hs : l.filter (fun e => !e.double) <;> cases s.nv.scCap <;>
        simp [hd, hs, sum, orSame]
    · cases hs : l.filter (fun e => e.double) <;> simp [hd, hs, sum, orSame]

/-- What reading the words that `p` selects can do (R164). -/
theorem State.readStore_wordsRead (s : State) (p : StoreError → Bool) :
    WordsRead s (s.readStore p) p := by
  have e : s.readStore p = _ := State.readErrors_eq (s.store.errs.filter p) s
  rw [e]
  have both : ∀ q : StoreError → Bool, (s.store.errs.filter p).filter q =
      s.store.errs.filter (fun e => p e && q e) := by
    intro q
    rw [List.filter_filter]
    exact List.filter_congr fun x _ => Bool.and_comm ..
  simp only [both]
  refine ⟨rfl, ?_, ?_, ?_, ?_, ?_, ?_⟩
  · intro h
    simp [h]
  · intro e l h
    simp [h]
  · intro h
    simp [h]
  · intro e l h
    simp [h]
  · rintro ⟨e, he, hp, h⟩
    exact if_pos ⟨e, List.mem_filter.mpr ⟨he, hp⟩, h⟩
  · intro h
    refine if_neg ?_
    rintro ⟨e, he, hd⟩
    obtain ⟨h1, h2⟩ := h e (List.mem_filter.mp he).1 (List.mem_filter.mp he).2
    simp [h1, h2] at hd

/-- A read of words leaves the request engine alone and does not depend on it (R164). -/
theorem State.readStore_term (s : State) (x : Term) (p : StoreError → Bool) :
    ({ s with term := x }).readStore p = { s.readStore p with term := x } := by
  rw [State.readStore, State.readStore, State.readErrors_eq, State.readErrors_eq]

/-- R174: when a section counts as locked. -/
theorem State.locked_iff (s : State) (sec : Section) :
    s.locked sec = true ↔ s.store.CountsLocked sec := by
  simp only [State.locked, State.readsDouble, inArea, Bool.or_eq_true, List.any_eq_true,
    Bool.and_eq_true, beq_iff_eq]
  exact Iff.rfl

/-- R154, R156: the high-water after a checkpoint write cut anywhere: the first word of an entry
checkpoint. -/
theorem Store.checkpointSteps_highWater (st : Store) (n : Nat) (h : Hose) (entry : Bool)
    (c : Checkpoint) : (st.checkpointSteps n h entry c).highWater =
      if entry && decide (1 ≤ n) then BitVec.ofNat 32 (Nat.max st.highWater.toNat c.seq.toNat)
      else st.highWater := by
  unfold Store.checkpointSteps
  dsimp only
  split <;> split <;> (try split) <;> rfl

/-- R165: an entry checkpoint that is cut behind its first word leaves the high-water that recovery goes
by as it stood; one that is whole has it be the word itself. -/
theorem Store.checkpointSteps_highWaterBefore (st : Store) (n : Nat) (h : Hose) (entry : Bool)
    (c : Checkpoint) : (st.checkpointSteps n h entry c).highWaterBefore =
      if entry && decide (1 ≤ n) then if 3 ≤ n then none else some st.judgedHighWater
      else st.highWaterBefore := by
  unfold Store.checkpointSteps
  dsimp only
  split <;> split <;> (try split) <;> simp_all [Store.raiseHighWater]

/-- R26, R165: cut before its complete marker, a checkpoint write does not move the high-water that
recovery goes by. -/
theorem Store.checkpointSteps_judgedHighWater (st : Store) {n : Nat} (h : Hose) (entry : Bool)
    (c : Checkpoint) (hn : n < 3) :
    (st.checkpointSteps n h entry c).judgedHighWater = st.judgedHighWater := by
  unfold Store.judgedHighWater
  rw [Store.checkpointSteps_highWater, Store.checkpointSteps_highWaterBefore]
  cases entry && decide (1 ≤ n)
  · rfl
  · simp [Store.judgedHighWater, Nat.not_le.mpr hn]

/-- R156: the newer copy of every hose stays whole until the copy written has its complete marker. -/
theorem Store.checkpointSteps_newerCopy (st : Store) {n : Nat} (h k : Hose) (entry : Bool)
    (c : Checkpoint) (hn : n < 3) : (st.checkpointSteps n h entry c).newerCopy k = st.newerCopy k := by
  by_cases h2 : 2 ≤ n
  · obtain rfl : n = 2 := by omega
    by_cases hk : h = k
    · subst hk
      rcases ha : st.copyA[h] with _ | a <;> rcases hb : st.copyB[h] with _ | b <;>
        (try cases hac : a.complete) <;> (try cases hbc : b.complete) <;>
        (try by_cases hw : a.writes < b.writes) <;>
        cases entry <;>
        simp_all [Store.checkpointSteps, Store.raiseHighWater, Store.newerCopy, put, -not_lt,
          -Nat.not_lt]
    · have hk' : ¬ h.val = k.val := fun e => hk (Fin.ext e)
      unfold Store.checkpointSteps
      dsimp only
      rw [if_pos h2]
      split <;> split <;> simp [Store.raiseHighWater, Store.newerCopy, put, hk']
  · simp only [Store.checkpointSteps, h2, if_false]
    split <;> rfl

/-- R26, R165: an entry checkpoint that a reset cuts before its complete marker leaves the number of
its fill to be drawn again. -/
theorem Store.checkpointSteps_nextSequence (st : Store) {n : Nat} (h : Hose) (entry : Bool)
    (c : Checkpoint) (hn : n < 3) :
    (st.checkpointSteps n h entry c).nextSequence = st.nextSequence := by
  have hl : (st.checkpointSteps n h entry c).log = st.log := by
    unfold Store.checkpointSteps
    dsimp only
    split <;> split <;> (try split) <;> rfl
  simp only [Store.nextSequence, Store.checkpointSteps_newerCopy st h _ entry c hn, hl,
    Store.checkpointSteps_judgedHighWater st h entry c hn]

/-- A pass that keeps the larger of what it has and what each entry shows ends at the largest. -/
theorem foldl_max {α : Type} {f : Nat → α → Nat} {g : α → Option Nat}
    (hf : ∀ a x, f a x = match g x with | none => a | some n => Nat.max a n) (l : List α) (a : Nat) :
    a ≤ l.foldl f a ∧ (∀ x ∈ l, ∀ n, g x = some n → n ≤ l.foldl f a) ∧
    (l.foldl f a = a ∨ ∃ x ∈ l, g x = some (l.foldl f a)) := by
  induction l generalizing a with
  | nil => simp
  | cons y l ih =>
    obtain ⟨h1, h2, h3⟩ := ih (f a y)
    have ha := hf a y
    rw [List.foldl_cons]
    cases hg : g y with
    | none =>
      rw [hg] at ha
      replace ha : f a y = a := ha
      rw [ha] at h1 h2 h3 ⊢
      refine ⟨h1, fun x hx n hn => ?_, h3.imp id fun ⟨x, hx, e⟩ => ⟨x, .tail _ hx, e⟩⟩
      rcases List.mem_cons.mp hx with rfl | hx
      · rw [hg] at hn; cases hn
      · exact h2 x hx n hn
    | some m =>
      rw [hg] at ha
      replace ha : f a y = max a m := ha
      refine ⟨by omega, fun x hx n hn => ?_, ?_⟩
      · rcases List.mem_cons.mp hx with rfl | hx
        · rw [hg] at hn; cases hn; omega
        · exact h2 x hx n hn
      · rcases h3 with h3 | ⟨x, hx, e⟩
        · rw [h3, ha]
          rcases Nat.le_total a m with h | h
          · exact .inr ⟨y, .head _, by rw [hg, Nat.max_eq_right h]⟩
          · exact .inl (Nat.max_eq_left h)
        · exact .inr ⟨x, .tail _ hx, e⟩

/-- R165: with no entry checkpoint cut short, the next sequence number is one above the largest of the
high-water, the sequences in the log and those of the newer copies. -/
theorem Store.nextSequence_above {st : Store} (hb : st.highWaterBefore = none)
    (hw : st.highWater ≠ 0xFFFFFFFF) (hl : ∀ e ∈ st.log, e.2.record.seq ≠ 0xFFFFFFFF)
    (hc : ∀ h b x, st.newerCopy h = some (b, x) → x.data.seq ≠ 0xFFFFFFFF) :
    st.highWater.toNat < st.nextSequence.toNat ∧
    (∀ e ∈ st.log, e.2.record.seq.toNat < st.nextSequence.toNat) ∧
    (∀ h b x, st.newerCopy h = some (b, x) → x.data.seq.toNat < st.nextSequence.toNat) ∧
    (st.nextSequence.toNat = st.highWater.toNat + 1 ∨
      (∃ e ∈ st.log, st.nextSequence.toNat = e.2.record.seq.toNat + 1) ∨
      ∃ h b x, st.newerCopy h = some (b, x) ∧
        st.nextSequence.toNat = x.data.seq.toNat + 1) := by
  have below (q : U32) (h : q ≠ 0xFFFFFFFF) : q.toNat + 1 < 2 ^ 32 := by
    have := q.isLt
    have : q.toNat ≠ 2 ^ 32 - 1 := fun e => h (BitVec.eq_of_toNat_eq e)
    omega
  obtain ⟨a1, a2, a3⟩ := foldl_max (f := fun a (e : Nat × LogEntry) => Nat.max a e.2.record.seq.toNat)
    (g := fun e => some e.2.record.seq.toNat) (fun _ _ => rfl) st.log st.highWater.toNat
  have cp := foldl_max
    (f := fun a h => match st.newerCopy h with
      | none => a
      | some (_, c) => Nat.max a c.data.seq.toNat)
    (g := fun h => (st.newerCopy h).map fun x => x.2.data.seq.toNat)
    (fun a h => by cases st.newerCopy h <;> rfl) (indices 4)
    (st.log.foldl (fun a e => Nat.max a e.2.record.seq.toNat) st.highWater.toNat)
  obtain ⟨b1, b2, b3⟩ := cp
  have next : st.nextSequence = BitVec.ofNat 32 ((indices 4).foldl
      (fun a h => match st.newerCopy h with
        | none => a
        | some (_, c) => Nat.max a c.data.seq.toNat)
      (st.log.foldl (fun a e => Nat.max a e.2.record.seq.toNat) st.highWater.toNat) + 1) := by
    unfold Store.nextSequence Store.judgedHighWater
    rw [hb]
    rfl
  rw [next]
  clear next
  generalize st.log.foldl (fun a e => Nat.max a e.2.record.seq.toNat) st.highWater.toNat = m at *
  generalize (indices 4).foldl _ m = q at *
  have hq : q = st.highWater.toNat ∨ (∃ e ∈ st.log, q = e.2.record.seq.toNat) ∨
      ∃ h b x, st.newerCopy h = some (b, x) ∧ q = x.data.seq.toNat := by
    rcases b3 with rfl | ⟨h, -, hx⟩
    · exact a3.imp id fun ⟨e, he, hm⟩ => .inl ⟨e, he, (Option.some.inj hm).symm⟩
    · obtain ⟨⟨b, x⟩, hx, hm⟩ := Option.map_eq_some_iff.mp hx
      exact .inr (.inr ⟨h, b, x, hx, hm.symm⟩)
  have small : q + 1 < 2 ^ 32 := by
    rcases hq with rfl | ⟨e, he, rfl⟩ | ⟨h, b, x, hx, rfl⟩
    · exact below _ hw
    · exact below _ (hl e he)
    · exact below _ (hc h b x hx)
  rw [BitVec.toNat_ofNat, Nat.mod_eq_of_lt small]
  refine ⟨by omega, fun e he => ?_, fun h b x hx => ?_, ?_⟩
  · have := a2 e he _ rfl
    omega
  · have := b2 h (by simp [indices]) x.data.seq.toNat (by rw [hx]; rfl)
    omega
  · rcases hq with rfl | ⟨e, he, rfl⟩ | ⟨h, b, x, hx, rfl⟩
    · exact .inl rfl
    · exact .inr (.inl ⟨e, he, rfl⟩)
    · exact .inr (.inr ⟨h, b, x, hx, rfl⟩)

end Sys2Proof.Machine
end

