-- ==== Sys2Proof/Laws/LoadPass.lean ====
section
/-! SUPPORT. What the passes of a load leave of the state (R4, R85, R106, R117, R152, R168, R169): one
lemma for each pass, for one tank or hose, and one frame for what it leaves alone. -/

namespace Sys2Proof.Machine

/-- A set flag stays set where flags are only added. -/
theorem State.flagSet_mono {s u : State} (h : u.flags &&& s.flags = s.flags) (e : EventFlag)
    (hs : s.flagSet e = true) : u.flagSet e = true := by
  unfold State.flagSet at *
  rw [← h, BitVec.getLsbD_and] at hs
  simp at hs
  exact hs.1

theorem flags_or_and (f m : BitVec 12) : (f ||| m) &&& f = f := by
  ext i
  simp
  exact Or.inl

theorem flags_and_trans {a b c : BitVec 12} (h : b &&& a = a) (k : c &&& b = b) : c &&& a = a := by
  rw [← h]
  conv_rhs => rw [← k]
  ext i
  simp [Bool.and_assoc]

/-! ## The home units (R85, R117) -/

/-- What the pass over the home units may change beside units, bund inputs and views: PUMP_LOST of fills,
reservations and flags. -/
structure HomesFrame (s u : State) : Prop where
  cfg : u.cfg = s.cfg
  link : u.link = s.link
  pumps : u.pumps = s.pumps
  store : u.store = s.store
  shut : u.shut = { s.shut with bund := u.shut.bund }
  hose : ∀ h : Hose, u.hoses[h] = { s.hoses[h] with fill := u.fill h }
  waits : ∀ h : Hose, (u.fill h).waits = (s.fill h).waits
  flags : u.flags &&& s.flags = s.flags

theorem HomesFrame.rfl' (s : State) : HomesFrame s s :=
  ⟨rfl, rfl, rfl, rfl, rfl, fun _ => rfl, fun _ => rfl, by simp⟩

theorem HomesFrame.trans {s t u : State} (a : HomesFrame s t) (b : HomesFrame t u) :
    HomesFrame s u := by
  refine ⟨b.cfg.trans a.cfg, b.link.trans a.link, b.pumps.trans a.pumps, b.store.trans a.store,
    ?_, fun h => ?_, fun h => (b.waits h).trans (a.waits h), flags_and_trans a.flags b.flags⟩
  · rw [b.shut, a.shut]
  · rw [b.hose, a.hose]

/-- The unit, the bund input and the view of a tank. -/
def State.homePart (t : Tank) (s : State) : Option HomeUnit × InputUnit × TankView :=
  (s.home[t], s.shut.bund[t], s.views[t])

/-- R85: the tank is homed after a load that has given the configuration `c`, `was` saying whether it
was before. -/
def Cfg.homes (c : Cfg) (t : Tank) (was : Bool) : Bool :=
  if c.valid[Section.station.index] && c.valid[Section.tanks.index] then c.data.homedBit t else was

/-- R85, R92, R117: what the pass does to the part of a tank. -/
def Cfg.loadHome (t : Tank) (c : Cfg) (x : Option HomeUnit × InputUnit × TankView) :
    Option HomeUnit × InputUnit × TankView :=
  match x.1, c.homes t x.1.isSome with
  | some _, true => x
  | some _, false => (none, x.2.1.leave, x.2.2.emptied)
  | none, true =>
    (some { HomeUnit.reset with cfg := c.data.tanks[t] }, x.2.1.join, x.2.2)
  | none, false => if c.homeOf[t] = none then (none, x.2.1, x.2.2.emptied) else x

/-- The cases of `Cfg.loadHome`: kept, removed, created, not fitted, of another station. -/
theorem Cfg.loadHome_cases (t : Tank) (c : Cfg) (x : Option HomeUnit × InputUnit × TankView) :
    (c.homes t x.1.isSome = true ∧ x.1 ≠ none ∧ c.loadHome t x = x) ∨
    (c.homes t x.1.isSome = false ∧ x.1 ≠ none ∧
      c.loadHome t x = (none, x.2.1.leave, x.2.2.emptied)) ∨
    (c.homes t x.1.isSome = true ∧ x.1 = none ∧ c.loadHome t x =
      (some { HomeUnit.reset with cfg := c.data.tanks[t] }, x.2.1.join, x.2.2)) ∨
    (c.homes t x.1.isSome = false ∧ x.1 = none ∧ c.homeOf[t] = none ∧
      c.loadHome t x = (none, x.2.1, x.2.2.emptied)) ∨
    (c.homes t x.1.isSome = false ∧ x.1 = none ∧ c.homeOf[t] ≠ none ∧ c.loadHome t x = x) := by
  obtain ⟨x1, x2, x3⟩ := x
  unfold Cfg.loadHome
  dsimp only
  cases x1 <;> cases hn : c.homes t _
  · by_cases h : c.homeOf[t] = none
    · exact .inr (.inr (.inr (.inl ⟨rfl, rfl, h, if_pos h⟩)))
    · exact .inr (.inr (.inr (.inr ⟨rfl, rfl, h, if_neg h⟩)))
  · exact .inr (.inr (.inl ⟨rfl, rfl, rfl⟩))
  · exact .inr (.inl ⟨rfl, by simp, rfl⟩)
  · exact .inl ⟨rfl, by simp, rfl⟩

/-- R85: the log reservation that the removal of a unit releases. -/
def receiptReleased (before after : Option HomeUnit) : Bool :=
  (before.bind HomeUnit.receipt).isSome && after.isNone

/-- R85: one tank at a load. -/
structure HomeStep (s u : State) (t : Tank) : Prop where
  frame : HomesFrame s u
  others : ∀ k, k ≠ t → u.homePart k = s.homePart k
  part : u.homePart t = s.cfg.loadHome t (s.homePart t)
  reservations : u.nv.reservations =
    s.nv.reservations - if receiptReleased s.home[t] u.home[t] then 1 else 0
  stock : s.views[t].state ≠ u.views[t].state → u.flagSet .stock = true

/-- A state left as it is. -/
theorem HomeStep.same {s : State} {t : Tank} (hp : s.cfg.loadHome t (s.homePart t) = s.homePart t) :
    HomeStep s s t := by
  refine ⟨.rfl' s, fun _ _ => rfl, hp.symm, ?_, by simp⟩
  cases hx : s.home[t] <;> simp [receiptReleased]

/-- A view has been emptied. -/
theorem HomeStep.moved {s x u : State} {t : Tank} (m : HoldsMoved x u) (hc : x.cfg = s.cfg)
    (hl : x.link = s.link) (hp : x.pumps = s.pumps) (hs : x.store = s.store)
    (hh : x.hoses = s.hoses) (hb : x.shut = { s.shut with bund := x.shut.bund })
    (hf : x.flags = if s.views[t].state = .gaugeFault then s.flags
      else s.flags ||| EventFlag.stock.mask)
    (ho : ∀ k, k ≠ t → x.homePart k = s.homePart k)
    (ht : x.homePart t = s.cfg.loadHome t (s.homePart t)) (hv : x.views[t].state = .gaugeFault)
    (hr : x.nv.reservations =
      s.nv.reservations - if receiptReleased s.home[t] x.home[t] then 1 else 0) :
    HomeStep s u t := by
  have r := m.rest
  have fx : ∀ h, x.fill h = s.fill h := by
    intro h
    simp [State.fill, hh]
  refine ⟨⟨?_, ?_, ?_, ?_, ?_, fun h => ?_, fun h => ?_, ?_⟩, fun k hk => ?_, ?_, ?_, ?_⟩
  · rw [r]; exact hc
  · rw [r]; exact hl
  · rw [r]; exact hp
  · rw [r]; exact hs
  · rw [r]; exact hb
  · rw [m.hose h, hh]
  · rw [m.waits h, fx]
  · rw [r]
    show x.flags &&& s.flags = s.flags
    rw [hf]
    split
    · simp
    · exact flags_or_and _ _
  · rw [r]; exact ho k hk
  · rw [r]; exact ht
  · rw [r]; exact hr
  · rw [r]
    show s.views[t].state ≠ x.views[t].state → x.flags.getLsbD _ = true
    rw [hf, hv]
    intro h
    rw [if_neg h, BitVec.getLsbD_or]
    simp [EventFlag.mask, EventFlag.bit]

/-- R85: what a load does to one tank. -/
theorem State.loadHome_step (s : State) (t : Tank) : HomeStep s (s.loadHome t) t := by
  have hn : s.homedNow t = s.cfg.homes t s.home[t].isSome := rfl
  rcases Option.eq_none_or_eq_some s.home[t] with hu | ⟨u, hu⟩
  · cases hh : s.homedNow t with
    | true =>
      rw [hh, hu] at hn
      rw [State.loadHome_created hu hh]
      refine ⟨⟨rfl, rfl, rfl, rfl, rfl, fun _ => rfl, fun _ => rfl, by simp⟩, ?_, ?_, ?_, by simp⟩
      · intro k hk
        simp [State.homePart, Ne.symm hk]
      · simp only [Cfg.loadHome, State.homePart, hu, ← hn]
        simp [State.tankCfg]
      · simp [receiptReleased]
    | false =>
      rw [hh, hu] at hn
      by_cases hf : s.cfg.homeOf[t] = none
      · rw [State.loadHome_unfitted hu hh hf]
        refine HomeStep.moved (State.emptyView_moves s t) rfl rfl rfl rfl rfl rfl rfl ?_ ?_ ?_ ?_
        · intro k hk
          simp [State.homePart, Ne.symm hk]
        · simp only [Cfg.loadHome, State.homePart, hu, ← hn]
          rw [if_pos hf]
          simp
        · simp [TankView.emptied]
        · simp only [receiptReleased, hu]
          simp
      · rw [State.loadHome_remote hu hh hf]
        refine .same ?_
        simp only [Cfg.loadHome, State.homePart, hu, ← hn]
        rw [if_neg hf]
  · cases hh : s.homedNow t with
    | true =>
      rw [hh, hu] at hn
      rw [State.loadHome_kept hu hh]
      refine .same ?_
      simp only [Cfg.loadHome, State.homePart, hu, ← hn]
    | false =>
      rw [hh, hu] at hn
      refine HomeStep.moved (State.loadHome_removed hu hh) rfl rfl rfl rfl rfl rfl rfl ?_ ?_ ?_ ?_
      · intro k hk
        simp [State.homePart, Ne.symm hk]
      · simp only [Cfg.loadHome, State.homePart, hu, ← hn]
        simp
      · simp [TankView.emptied]
      · simp [receiptReleased, hu]

/-- R85: what a load does to all tanks. -/
structure HomesLoaded (s u : State) (l : List Tank) : Prop where
  frame : HomesFrame s u
  others : ∀ t ∉ l, u.homePart t = s.homePart t
  part : ∀ t ∈ l, u.homePart t = s.cfg.loadHome t (s.homePart t)
  stock : ∀ t ∈ l, s.views[t].state ≠ u.views[t].state → u.flagSet .stock = true
  reservations : u.nv.reservations =
    s.nv.reservations - (l.filter fun t => receiptReleased s.home[t] u.home[t]).length

theorem homePart_eq {s u : State} {t : Tank} (h : u.homePart t = s.homePart t) :
    u.home[t] = s.home[t] ∧ u.views[t] = s.views[t] := by
  simp only [State.homePart, Prod.mk.injEq] at h
  exact ⟨h.1, h.2.2⟩

theorem State.loadHomes_list (l : List Tank) : ∀ s : State, l.Nodup →
    HomesLoaded s (l.foldl (fun s t => s.loadHome t) s) l := by
  induction l with
  | nil => exact fun s _ => ⟨.rfl' s, fun _ _ => rfl, by simp, by simp, by simp⟩
  | cons a l ih =>
    intro s hl
    obtain ⟨ha, hl⟩ := List.nodup_cons.mp hl
    have r := ih (s.loadHome a) hl
    have e := s.loadHome_step a
    rw [List.foldl_cons]
    generalize l.foldl (fun s t => s.loadHome t) (s.loadHome a) = u at *
    have hne : ∀ t ∈ l, t ≠ a := fun t ht e => ha (e ▸ ht)
    have hv := homePart_eq (r.others a ha)
    refine ⟨e.frame.trans r.frame, fun t ht => ?_, fun t ht => ?_, fun t ht => ?_, ?_⟩
    · rw [List.mem_cons, not_or] at ht
      rw [r.others t ht.2, e.others t ht.1]
    · rcases List.mem_cons.mp ht with rfl | ht
      · rw [r.others _ ha, e.part]
      · rw [r.part t ht, e.frame.cfg, e.others t (hne t ht)]
    · rcases List.mem_cons.mp ht with rfl | ht
      · rw [hv.2]
        exact fun h => State.flagSet_mono r.frame.flags _ (e.stock h)
      · rw [← (homePart_eq (e.others t (hne t ht))).2]
        exact r.stock t ht
    · have c : (l.filter fun t => receiptReleased (s.loadHome a).home[t] u.home[t]) =
          l.filter fun t => receiptReleased s.home[t] u.home[t] := by
        refine List.filter_congr fun t ht => ?_
        rw [(homePart_eq (e.others t (hne t ht))).1]
      rw [r.reservations, e.reservations, List.filter_cons, hv.1, c]
      split
      · simp only [List.length_cons]
        omega
      · simp

/-- R85: the pass over the home units. -/
theorem State.loadHomes (s : State) :
    HomesLoaded s (forTanks (fun t s => s.loadHome t) s) (indices 8) := by
  have nd : (indices 8).Nodup := List.nodup_finRange 8
  rw [forTanks]
  generalize indices 8 = l at nd
  exact State.loadHomes_list l s nd

/-! ## The pump controllers (R106) -/

/-- What the pass over the pump controllers may change: controllers, pump views, PUMP_LOST of fills and
PUMP frames offered. -/
structure PumpsFrame (s u : State) : Prop where
  rest : u = { s with
    pumps := u.pumps, views := u.views, hoses := u.hoses,
    link := { s.link with txQueue := u.link.txQueue, pendPump := u.link.pendPump,
                          newBeacon := u.link.newBeacon } }
  hose : ∀ h : Hose, u.hoses[h] = { s.hoses[h] with fill := u.fill h }
  waits : ∀ h : Hose, (u.fill h).waits = (s.fill h).waits
  view : ∀ t : Tank, u.views[t] = { s.views[t] with pump := u.views[t].pump }
  queue : ∀ e ∈ s.link.txQueue, e ∈ u.link.txQueue
  pend : ∀ t ∈ s.link.pendPump, t ∈ u.link.pendPump

theorem PumpsFrame.rfl' (s : State) : PumpsFrame s s :=
  ⟨rfl, fun _ => rfl, fun _ => rfl, fun _ => rfl, fun _ h => h, fun _ h => h⟩

theorem PumpsFrame.trans {s t u : State} (a : PumpsFrame s t) (b : PumpsFrame t u) :
    PumpsFrame s u := by
  refine ⟨?_, fun h => ?_, fun h => (b.waits h).trans (a.waits h), fun k => ?_,
    fun e h => b.queue e (a.queue e h), fun e h => b.pend e (a.pend e h)⟩
  · rw [b.rest, a.rest]
  · rw [b.hose, a.hose]
  · rw [b.view, a.view]

theorem HoldsMoved.pumpsFrame {s u : State} (m : HoldsMoved s u) : PumpsFrame s u := by
  have r := m.rest
  refine ⟨?_, m.hose, m.waits, fun t => ?_, ?_, ?_⟩
  · rw [r]
  · rw [r]
  · rw [r]; exact fun _ h => h
  · rw [r]; exact fun _ h => h

/-- The controller and the pump view of a tank. -/
def State.pumpPart (t : Tank) (s : State) : Option Pump × PumpView := (s.pumps[t], s.views[t].pump)

/-- R106: what the pass does to the part of a tank; `runs` with the STATION section valid and the tank
homed. -/
def loadPumpPart (runs : Bool) (x : Option Pump × PumpView) : Option Pump × PumpView :=
  match x.1, runs with
  | some _, true => x
  | none, true => (some Pump.reset, .known .resting none)
  | some _, false => (none, .unknown)
  | none, false => x

/-- The PUMP frame of a controller in RESTING waits in the queue or is pending. -/
def Link.offersRest (l : Link) (t : Tank) : Prop :=
  t ∈ l.pendPump ∨ ∃ e ∈ l.txQueue, e.frame = .pump t .resting none ∧ e.sending = false

theorem PumpsFrame.offersRest {s u : State} {t : Tank} (a : PumpsFrame s u)
    (h : s.link.offersRest t) : u.link.offersRest t := by
  rcases h with h | ⟨e, he, h⟩
  · exact .inl (a.pend _ h)
  · exact .inr ⟨e, a.queue _ he, h⟩

theorem mem_addPending (t k : Tank) (l : List Tank) : k ∈ addPending t l ↔ k ∈ l ∨ k = t := by
  unfold addPending
  split
  · rename_i h
    constructor
    · exact .inl
    · rintro (h' | rfl)
      · exact h'
      · simpa using h
  · simp

/-- R106: one controller at a load. -/
structure PumpStep (s u : State) (t : Tank) : Prop where
  frame : PumpsFrame s u
  others : ∀ k, k ≠ t → u.pumpPart k = s.pumpPart k
  part : u.pumpPart t = loadPumpPart (s.pumpRuns t) (s.pumpPart t)
  offered : s.pumps[t] = none → u.pumps[t] ≠ none → u.link.offersRest t

theorem PumpStep.moved {s x u : State} {t : Tank} (m : HoldsMoved x u) (a : PumpStep s x t) :
    PumpStep s u t := by
  have r := m.rest
  refine ⟨a.frame.trans m.pumpsFrame, fun k hk => ?_, ?_, ?_⟩
  · rw [r]; exact a.others k hk
  · rw [r]; exact a.part
  · rw [r]; exact a.offered

/-- R106: what a load does to one controller. -/
theorem State.loadPump_step (s : State) (t : Tank) : PumpStep s (s.loadPump t) t := by
  rcases Option.eq_none_or_eq_some s.pumps[t] with hp | ⟨p, hp⟩ <;> cases hr : s.pumpRuns t
  · rw [State.loadPump_absent hr hp]
    refine ⟨.rfl' s, fun _ _ => rfl, ?_, fun _ h => absurd hp h⟩
    simp only [loadPumpPart, State.pumpPart, hp, hr]
  · refine PumpStep.moved (State.loadPump_created hr hp)
      ⟨⟨?_, fun _ => rfl, fun _ => rfl, fun k => ?_, ?_, ?_⟩, fun k hk => ?_, ?_, fun _ _ => ?_⟩
    · simp only [Link.offer]
      split <;> simp [Link.enter, Link.noteBeacon]
    · by_cases hk : t = k
      · subst hk; simp
      · simp [hk]
    · simp only [Link.offer]
      split
      · simp only [Link.enter, Link.noteBeacon]
        exact fun _ h => List.mem_append_left _ h
      · exact fun _ h => h
    · simp only [Link.offer]
      split
      · exact fun _ h => h
      · exact fun k h => (mem_addPending t k _).mpr (.inl h)
    · simp [State.pumpPart, Ne.symm hk]
    · simp only [loadPumpPart, State.pumpPart, hp, hr]
      simp
    · simp only [Link.offersRest, Link.offer]
      split
      · right; simp [Link.enter, Link.noteBeacon]
      · left; exact (mem_addPending t t _).mpr (.inr rfl)
  · refine PumpStep.moved (State.loadPump_removed hr hp)
      ⟨⟨rfl, fun _ => rfl, fun _ => rfl, fun k => ?_, fun _ h => h, fun _ h => h⟩,
        fun k hk => ?_, ?_, ?_⟩
    · by_cases hk : t = k
      · subst hk; simp
      · simp [hk]
    · simp [State.pumpPart, Ne.symm hk]
    · simp only [loadPumpPart, State.pumpPart, hp, hr]
      simp
    · simp
  · rw [State.loadPump_kept hr hp]
    refine ⟨.rfl' s, fun _ _ => rfl, ?_, by simp [hp]⟩
    simp only [loadPumpPart, State.pumpPart, hp, hr]

theorem PumpsFrame.pumpRuns {s u : State} (a : PumpsFrame s u) (t : Tank) :
    u.pumpRuns t = s.pumpRuns t := by rw [a.rest]; rfl

/-- R106: what a load does to all controllers. -/
structure PumpsLoaded (s u : State) (l : List Tank) : Prop where
  frame : PumpsFrame s u
  others : ∀ t ∉ l, u.pumpPart t = s.pumpPart t
  part : ∀ t ∈ l, u.pumpPart t = loadPumpPart (s.pumpRuns t) (s.pumpPart t)
  offered : ∀ t ∈ l, s.pumps[t] = none → u.pumps[t] ≠ none → u.link.offersRest t

theorem State.loadPumps_list (l : List Tank) : ∀ s : State, l.Nodup →
    PumpsLoaded s (l.foldl (fun s t => s.loadPump t) s) l := by
  induction l with
  | nil => exact fun s _ => ⟨.rfl' s, fun _ _ => rfl, by simp, by simp⟩
  | cons a l ih =>
    intro s hl
    obtain ⟨ha, hl⟩ := List.nodup_cons.mp hl
    have r := ih (s.loadPump a) hl
    have e := s.loadPump_step a
    rw [List.foldl_cons]
    generalize l.foldl (fun s t => s.loadPump t) (s.loadPump a) = u at *
    have hne : ∀ t ∈ l, t ≠ a := fun t ht e => ha (e ▸ ht)
    have pumps : ∀ {x y : State} {t : Tank}, x.pumpPart t = y.pumpPart t →
        x.pumps[t] = y.pumps[t] := by
      intro x y t h
      simp only [State.pumpPart, Prod.mk.injEq] at h
      exact h.1
    refine ⟨e.frame.trans r.frame, fun t ht => ?_, fun t ht => ?_, fun t ht => ?_⟩
    · rw [List.mem_cons, not_or] at ht
      rw [r.others t ht.2, e.others t ht.1]
    · rcases List.mem_cons.mp ht with rfl | ht
      · rw [r.others _ ha, e.part]
      · rw [r.part t ht, e.frame.pumpRuns, e.others t (hne t ht)]
    · rcases List.mem_cons.mp ht with rfl | ht
      · rw [pumps (r.others _ ha)]
        exact fun h k => r.frame.offersRest (e.offered h k)
      · rw [← pumps (e.others t (hne t ht))]
        exact r.offered t ht

/-- R106: the pass over the pump controllers. -/
theorem State.loadPumps (s : State) :
    PumpsLoaded s (forTanks (fun t s => s.loadPump t) s) (indices 8) := by
  have nd : (indices 8).Nodup := List.nodup_finRange 8
  rw [forTanks]
  generalize indices 8 = l at nd
  exact State.loadPumps_list l s nd

/-! ## The hoses (R4, R18, R176) -/

/-- R4, R18, R176: what the pass does to a hose. -/
def Cfg.loadHose (h : Hose) (c : Cfg × U32) (x : HoseUnit) : HoseUnit :=
  let y := c.1.data.hoses[h]
  let operate := c.1.valid[Section.hoses.index] && c.1.valid[Section.products.index]
  { x with
    override := none,
    meter := { x.meter with
      keff := if c.1.valid[Section.hoses.index] then
          keffOf y.k1000.toNat (#v[y.c0, y.c1, y.c2, y.c3])[x.meter.band].toInt
        else Config.keffMin + (Config.unusedKeff c.2 h x.meter.band).val,
      mismatchRun := if operate then x.meter.mismatchRun else 0,
      excessRun := if operate then x.meter.excessRun else 0 } }

/-- R4, R18, R176: the pass over the hoses. -/
theorem State.loadHoses (s : State) :
    forHoses (fun h s => s.loadHose h) s =
      { s with hoses := (forHoses (fun h s => s.loadHose h) s).hoses } ∧
    ∀ h : Hose, (forHoses (fun h s => s.loadHose h) s).hoses[h] =
      Cfg.loadHose h (s.cfg, s.clock) s.hoses[h] := by
  constructor
  · refine forHoses_keeps (fun y => y = { s with hoses := y.hoses }) s rfl fun y k hy => ?_
    rw [State.loadHose_eq, hy]
  · refine forHoses_at (f := fun h s => s.loadHose h) (P := fun h s => s.hoses[h])
      (C := fun s => (s.cfg, s.clock)) (g := Cfg.loadHose) ?_ ?_ ?_ s
    · intro h s
      rw [State.loadHose_eq]
    · intro h k s hk
      rw [State.loadHose_eq]
      simp [Ne.symm hk]
    · intro h s
      rw [State.loadHose_eq]
      simp only [Cfg.loadHose, put_get]
      have e : (s.modHose h fun u => { u with override := none }).keffFor h (s.meter h).band =
          if s.cfg.valid[Section.hoses.index] then
            keffOf s.cfg.data.hoses[h].k1000.toNat
              (#v[s.cfg.data.hoses[h].c0, s.cfg.data.hoses[h].c1, s.cfg.data.hoses[h].c2,
                  s.cfg.data.hoses[h].c3])[s.hoses[h].meter.band].toInt
          else Config.keffMin + (Config.unusedKeff s.clock h s.hoses[h].meter.band).val := by
        unfold State.keffFor
        simp [State.modHose, State.sectionValid, State.k1000, State.correction, State.hoseCfg,
          State.meter]
      rw [e]
      rfl

/-! ## The link (R96, R152) -/

/-- R96: the own draw totals go to a number taken up for the first time, and move nothing else. -/
theorem TankView.number_eq (v : TankView) (p : Station) :
    v.number p = { v with
      lastTotals := (v.number p).lastTotals, ownTotal := (v.number p).ownTotal } ∧
    (v.ownTotal = none → v.number p = v) := by
  unfold TankView.number
  split
  · exact ⟨rfl, fun _ => rfl⟩
  · rename_i x hx
    refine ⟨rfl, fun h => ?_⟩
    rw [hx] at h
    cases h

/-- R96, R152: the link controller at a load. -/
theorem State.loadLink_eq (s : State) :
    s.loadLink = { s with
      link := s.link.load (s.sectionValid .station) s.cfg.data.station,
      views := s.loadLink.views } ∧
    ∀ t : Tank, s.loadLink.views[t] = { s.views[t] with
        lastTotals := s.loadLink.views[t].lastTotals, ownTotal := s.loadLink.views[t].ownTotal } ∧
      (s.views[t].ownTotal = none → s.loadLink.views[t] = s.views[t]) := by
  have key : ∀ (w : Vector TankView 8), (w = s.views ∨ ∃ p, w = mapVec (fun v => v.number p) s.views) →
      ∀ t : Tank, w[t] = { s.views[t] with
        lastTotals := w[t].lastTotals, ownTotal := w[t].ownTotal } ∧
      (s.views[t].ownTotal = none → w[t] = s.views[t]) := by
    rintro w (rfl | ⟨p, rfl⟩) t
    · exact ⟨rfl, fun _ => rfl⟩
    · have e : (mapVec (fun v => v.number p) s.views)[t] = s.views[t].number p := by simp [mapVec]
      rw [e]
      exact TankView.number_eq _ _
  unfold State.loadLink
  dsimp only
  split
  · exact ⟨rfl, key s.views (.inl rfl)⟩
  · exact ⟨rfl, key _ (.inr ⟨_, rfl⟩)⟩

/-- R152: a load that gives the first number or leaves number and rate as they are keeps the frames that
wait and the pending PUMP offers. -/
theorem Link.load_keeps (l : Link) (c : StationCfg)
    (h : l.number = none ∨ l.target = (stationOf c.number, c.rate)) :
    (l.load true c).txQueue = l.txQueue ∧ (l.load true c).pendPump = l.pendPump := by
  unfold Link.load
  simp only [if_true]
  split
  · exact ⟨rfl, rfl⟩
  · rename_i hn
    rcases h with h | h
    · exact absurd h hn
    · rw [if_pos h]
      exact ⟨rfl, rfl⟩

/-! ## CONFIG_FAULT (R39, R74, R169) -/

/-- What the judgement of CONFIG_FAULT may change: that mark, fills, the visit, reservations, flags. -/
structure FaultFrame (s u : State) : Prop where
  rest : u = { s with
    hoses := u.hoses, visit := u.visit, flags := u.flags,
    cfg := { s.cfg with fault := u.cfg.fault },
    nv := { s.nv with reservations := u.nv.reservations } }
  hose : ∀ h : Hose, u.hoses[h] = { s.hoses[h] with fill := u.fill h }
  flags : u.flags &&& s.flags = s.flags

theorem FaultFrame.rfl' (s : State) : FaultFrame s s := ⟨rfl, fun _ => rfl, by simp⟩

theorem FaultFrame.trans {s t u : State} (a : FaultFrame s t) (b : FaultFrame t u) :
    FaultFrame s u := by
  refine ⟨?_, fun h => ?_, flags_and_trans a.flags b.flags⟩
  · rw [b.rest, a.rest]
  · rw [b.hose, a.hose]

theorem State.modFill_hose (s : State) (h k : Hose) (f : Fill → Fill) :
    (s.modFill h f).hoses[k] = { s.hoses[k] with fill := (s.modFill h f).fill k } := by
  by_cases e : h = k
  · subst e; simp [State.modFill, State.modHose, State.fill]
  · simp [State.modFill, State.modHose, State.fill, e]

theorem State.disarm_fill (s : State) (h k : Hose) (o : FillOutcome) :
    (s.disarm h o).fill k = if h = k then (s.fill h).disarm o else s.fill k :=
  s.modFill_fill h k fun f => f.disarm o

/-- R39: an end condition reaches the fill of one hose. -/
theorem State.endFill_frame (s : State) (h : Hose) (c : EndCause) :
    FaultFrame s (s.endFill h c) ∧ (∀ k, k ≠ h → (s.endFill h c).fill k = s.fill k) ∧
    ((s.endFill h c).fill h).waits = false ∧
    (s.endFill h c).nv.reservations = s.nv.reservations - if (s.fill h).waits then 1 else 0 := by
  unfold State.endFill
  cases hw : (s.fill h).waits
  · simp only [Bool.false_eq_true, if_false]
    refine ⟨⟨rfl, fun k => s.modFill_hose h k _, by simp⟩, fun k hk => ?_, ?_, rfl⟩
    · rw [State.modFill_fill, if_neg (Ne.symm hk)]
    · rw [State.modFill_fill, if_pos rfl]
      unfold Fill.endBy
      split
      · split <;> rfl
      · split
        · exact hw
        · exact hw
  · simp only [if_true]
    refine ⟨⟨rfl, fun k => s.modFill_hose h k fun f => f.disarm (.ended c), ?_⟩, fun k hk => ?_,
      ?_, rfl⟩
    · simp [State.disarm]
    · rw [State.disarm_fill, if_neg (Ne.symm hk)]
    · rw [State.disarm_fill, if_pos rfl]
      rfl

theorem State.endFills_list (c : EndCause) (l : List Hose) : ∀ s : State, l.Nodup →
    FaultFrame s (l.foldl (fun s h => s.endFill h c) s) ∧
    (∀ h ∉ l, (l.foldl (fun s h => s.endFill h c) s).fill h = s.fill h) ∧
    (∀ h ∈ l, ((l.foldl (fun s h => s.endFill h c) s).fill h).waits = false) ∧
    (l.foldl (fun s h => s.endFill h c) s).nv.reservations =
      s.nv.reservations - (l.filter fun h => (s.fill h).waits).length := by
  induction l with
  | nil => exact fun s _ => ⟨.rfl' s, by simp, by simp, by simp⟩
  | cons a l ih =>
    intro s hl
    obtain ⟨ha, hl⟩ := List.nodup_cons.mp hl
    obtain ⟨h1, h2, h3, h4⟩ := ih (s.endFill a c) hl
    obtain ⟨e1, e2, e3, e4⟩ := s.endFill_frame a c
    rw [List.foldl_cons]
    refine ⟨e1.trans h1, fun h hh => ?_, fun h hh => ?_, ?_⟩
    · rw [List.mem_cons, not_or] at hh
      rw [h2 h hh.2, e2 h hh.1]
    · rcases List.mem_cons.mp hh with rfl | hh
      · rw [h2 _ ha]; exact e3
      · exact h3 h hh
    · have w : (l.filter fun h => ((s.endFill a c).fill h).waits) =
          l.filter fun h => (s.fill h).waits :=
        List.filter_congr fun x hx => by rw [e2 x fun e => ha (e ▸ hx)]
      rw [h4, e4, w, List.filter_cons]
      cases (s.fill a).waits
      · simp
      · simp only [if_true, List.length_cons]
        omega

/-- R39: an end condition reaches every fill: none waits after it, and those that did have released
their reservations. -/
theorem State.endFills_frame (s : State) (c : EndCause) :
    FaultFrame s (s.endFills c) ∧ (∀ h, ((s.endFills c).fill h).waits = false) ∧
    (s.endFills c).nv.reservations =
      s.nv.reservations - ((indices 4).filter fun h => (s.fill h).waits).length := by
  have nd : (indices 4).Nodup := List.nodup_finRange 4
  have mem : ∀ h, h ∈ indices 4 := List.mem_finRange
  rw [State.endFills, forHoses]
  generalize indices 4 = l at nd mem
  obtain ⟨h1, _, h3, h4⟩ := State.endFills_list c l s nd
  exact ⟨h1, fun h => h3 h (mem h), h4⟩

/-- R73: with no fill waiting the end of a visit changes the visit alone. -/
theorem State.endVisit_quiet {s : State} (o : VisitOutcome) (h : ∀ h, (s.fill h).waits = false) :
    ∃ v : Visit, s.endVisit o = { s with visit := v } := by
  unfold State.endVisit
  split
  · have e : ∀ x : State, (∀ h, (x.fill h).waits = false) →
        forHoses (fun h s => s.visitEnds h) x = x := by
      intro x hx
      refine forHoses_keeps (fun y => y = x) x rfl ?_
      rintro y k rfl
      unfold State.visitEnds
      rw [if_neg]
      rw [hx k]
      simp
    rw [e (s.modVisit _) h]
    exact ⟨_, rfl⟩
  · exact ⟨s.visit, rfl⟩

/-- The mark stands through the end of every fill. -/
theorem State.endFills_fault {s : State} (c : EndCause) (h : s.cfg.fault = true) :
    (s.endFills c).cfg.fault = true := by
  unfold State.endFills
  refine forHoses_keeps (f := fun h s => s.endFill h c) (fun y => y.cfg.fault = true) s h ?_
  intro y k hy
  unfold State.endFill
  split
  · exact hy
  · exact hy

/-- R39, R74, R169: CONFIG_FAULT is entered. -/
theorem State.enterConfigFault_frame (s : State) :
    FaultFrame s s.enterConfigFault ∧ s.enterConfigFault.cfg.fault = true ∧
    s.enterConfigFault.nv.reservations =
      s.nv.reservations - ((indices 4).filter fun h => (s.fill h).waits).length := by
  unfold State.enterConfigFault
  obtain ⟨x, hx⟩ : ∃ x, x = (s.modCfg fun c => { c with fault := true }).raise .config := ⟨_, rfl⟩
  rw [← hx]
  have z : FaultFrame s x := by rw [hx]; exact ⟨rfl, fun _ => rfl, flags_or_and _ _⟩
  have zf : x.cfg.fault = true := by rw [hx]; rfl
  have zr : x.nv.reservations = s.nv.reservations := by rw [hx]; rfl
  have zw : ∀ h, x.fill h = s.fill h := by intro h; rw [hx]; rfl
  obtain ⟨a1, a2, a3⟩ := x.endFills_frame .configFault
  have zz := State.endFills_fault .configFault zf
  obtain ⟨v, q⟩ := State.endVisit_quiet .configFault a2
  rw [q]
  generalize x.endFills .configFault = y at *
  refine ⟨(z.trans a1).trans ⟨rfl, fun _ => rfl, by simp⟩, zz, ?_⟩
  show y.nv.reservations = _
  rw [a3, zr]
  simp only [zw]

/-- R169: CONFIG_FAULT after the judgement of a load. -/
theorem State.judgeFault_frame (s : State) :
    FaultFrame s s.judgeFault ∧
    s.judgeFault.cfg.fault = (allSections.any fun sec => !s.sectionValid sec) ∧
    s.judgeFault.nv.reservations = s.nv.reservations -
      if s.cfg.fault = false ∧ s.judgeFault.cfg.fault = true then
        ((indices 4).filter fun h => (s.fill h).waits).length
      else 0 := by
  obtain ⟨e1, e2, e3⟩ := s.enterConfigFault_frame
  obtain ⟨b, hb⟩ : ∃ b, b = allSections.any fun sec => !s.sectionValid sec := ⟨_, rfl⟩
  unfold State.judgeFault
  dsimp only
  rw [← hb]
  cases b <;> cases hf : s.cfg.fault
  · rw [if_neg (by simp), if_neg (by simp)]
    exact ⟨.rfl' s, hf, by simp [hf]⟩
  · rw [if_neg (by simp), if_pos (by simp)]
    exact ⟨⟨rfl, fun _ => rfl, flags_or_and _ _⟩, rfl, by simp⟩
  · rw [if_pos (by simp)]
    exact ⟨e1, e2, by rw [if_pos ⟨rfl, e2⟩]; exact e3⟩
  · rw [if_neg (by simp), if_neg (by simp)]
    exact ⟨.rfl' s, hf, by simp⟩

/-! ## The end of a load (R170, R171, R186) -/

/-- What the end of a load leaves: tanks, pumps, shutdown unit, link, reservations, the configuration as it
was judged, and of a hose all but its timers and what READ_HOSE shows. -/
structure LoadEndFrame (s u : State) : Prop where
  home : u.home = s.home
  views : u.views = s.views
  pumps : u.pumps = s.pumps
  shut : u.shut = s.shut
  link : u.link = s.link
  reservations : u.nv.reservations = s.nv.reservations
  homeOf : u.cfg.homeOf = s.cfg.homeOf
  valid : u.cfg.valid = s.cfg.valid
  fault : u.cfg.fault = s.cfg.fault
  flags : u.flags &&& s.flags = s.flags
  override : ∀ h : Hose, u.hoses[h].override = s.hoses[h].override
  meter : ∀ h : Hose, u.meter h =
    { s.meter h with shown := (u.meter h).shown, interval := (u.meter h).interval }

theorem LoadEndFrame.trans {s t u : State} (a : LoadEndFrame s t) (b : LoadEndFrame t u) :
    LoadEndFrame s u := by
  refine ⟨b.home.trans a.home, b.views.trans a.views, b.pumps.trans a.pumps, b.shut.trans a.shut,
    b.link.trans a.link, b.reservations.trans a.reservations, b.homeOf.trans a.homeOf,
    b.valid.trans a.valid, b.fault.trans a.fault, flags_and_trans a.flags b.flags,
    fun h => (b.override h).trans (a.override h), fun h => ?_⟩
  rw [b.meter, a.meter]

/-- A change of the other parts alone. -/
theorem LoadEndFrame.of {s u : State} (hh : u.hoses = s.hoses) (h1 : u.home = s.home)
    (h2 : u.views = s.views) (h3 : u.pumps = s.pumps) (h4 : u.shut = s.shut)
    (h5 : u.link = s.link) (h6 : u.nv.reservations = s.nv.reservations) (h7 : u.cfg = s.cfg)
    (h8 : u.flags &&& s.flags = s.flags) : LoadEndFrame s u := by
  refine ⟨h1, h2, h3, h4, h5, h6, ?_, ?_, ?_, h8, fun h => ?_, fun h => ?_⟩
  · rw [h7]
  · rw [h7]
  · rw [h7]
  · rw [hh]
  · simp only [State.meter, hh]

theorem LoadEndFrame.rfl' (s : State) : LoadEndFrame s s :=
  .of rfl rfl rfl rfl rfl rfl rfl rfl (by simp)

theorem State.readStore_end (s : State) (p : StoreError → Bool) :
    LoadEndFrame s (s.readStore p) := by
  have r := State.readStore_wordsRead s p
  have h := r.rest
  have f : (s.readStore p).flags &&& s.flags = s.flags := by
    by_cases e : ∃ e ∈ s.store.errs, p e = true ∧ (e.double = true ∨ s.nv.scCap = none)
    · rw [r.flagged e]
      exact flags_or_and _ _
    · rw [r.unflagged]
      · simp
      · intro x hx hp
        refine ⟨?_, fun hs => e ⟨x, hx, hp, .inr hs⟩⟩
        by_contra hd
        exact e ⟨x, hx, hp, .inl (by simpa using hd)⟩
  refine .of ?_ ?_ ?_ ?_ ?_ ?_ ?_ ?_ f
  all_goals rw [h]

theorem State.offerEpoch_end (s : State) (e : U16) : LoadEndFrame s (s.offerJob (.epochUpdate e)) := by
  have z : ∀ q held : List Job,
      LoadEndFrame s (s.modNv fun n => { n with queue := q, held := held }) :=
    fun q held => .of rfl rfl rfl rfl rfl rfl rfl rfl (by simp)
  unfold State.offerJob
  split
  · dsimp only
    split
    · rename_i hq
      have hq : s.nv.queue = [] := by simpa using hq
      have b : (s.modNv fun n => { n with queue := n.queue ++ [.epochUpdate e] }).beginJob =
          s.modNv fun n => { n with queue := n.queue ++ [.epochUpdate e] } := by
        simp [State.beginJob, hq]
      rw [b]
      exact z (s.nv.queue ++ [.epochUpdate e]) s.nv.held
    · exact z (s.nv.queue ++ [.epochUpdate e]) s.nv.held
  · exact z s.nv.queue (s.nv.held ++ [.epochUpdate e])

theorem State.startTimers_end (s : State) : LoadEndFrame s s.startTimers := by
  unfold State.startTimers
  refine LoadEndFrame.trans (t := forHoses (fun h s =>
    (s.modMeter h fun m => { m.show with interval := some Config.tenthMs }).modHose h fun u =>
      { u with ramp := some Config.tenthMs }) s) ?_
    ⟨rfl, rfl, rfl, rfl, rfl, rfl, rfl, rfl, rfl, by simp, fun _ => rfl, fun _ => rfl⟩
  refine forHoses_keeps (fun y => LoadEndFrame s y) s (.rfl' s) fun y k hy => hy.trans
    ⟨rfl, rfl, rfl, rfl, rfl, rfl, rfl, rfl, rfl, by simp, fun h => ?_, fun h => ?_⟩
  · by_cases e : k = h
    · subst e; simp [State.modMeter, State.modHose]
    · simp [State.modMeter, State.modHose, e]
  · by_cases e : k = h
    · subst e; simp [State.modMeter, State.modHose, State.meter, Meter.show]
    · simp [State.modMeter, State.modHose, State.meter, e]

theorem State.beginRecovery_end (s : State) : LoadEndFrame s s.beginRecovery := by
  unfold State.beginRecovery
  have a : LoadEndFrame s { s with phase := .recovery } :=
    .of rfl rfl rfl rfl rfl rfl rfl rfl (by simp)
  have b := State.readStore_end { s with phase := .recovery } (inArea .epoch)
  generalize ({ s with phase := .recovery } : State).readStore (inArea .epoch) = x at b
  have c : LoadEndFrame x (x.modNv fun n => { n with recovery := .epoch }) :=
    .of rfl rfl rfl rfl rfl rfl rfl rfl (by simp)
  exact ((a.trans b).trans c).trans (State.offerEpoch_end _ _)

theorem State.endExecution_end (s : State) (st : Status) (l : List Byte) :
    LoadEndFrame s (s.endExecution st l) := by
  unfold State.endExecution
  split
  · exact .rfl' s
  · exact .of rfl rfl rfl rfl rfl rfl rfl rfl (by simp [State.formReply, State.modTerm])

/-- R170, R171, R186: what the end of a load leaves. -/
theorem State.finishLoad_end (s : State) (cause : LoadCause) :
    LoadEndFrame s.completeLoad (s.finishLoad cause) := by
  unfold State.finishLoad
  generalize s.completeLoad = c
  have a : LoadEndFrame c
      (if c.term.engine = some 0x25 then c.endExecution .done c.loadItems else c) :=
    ite_cases (LoadEndFrame c) (c.endExecution_end _ _) (.rfl' c)
  dsimp only
  generalize (if c.term.engine = some 0x25 then c.endExecution .done c.loadItems else c) = g at *
  cases cause
  · exact a.trans (g.startTimers_end.trans (State.beginRecovery_end _))
  · exact a
  · exact a

/-- R168: what the reading of the sections leaves, and the home stations it takes up (R85). -/
theorem State.loadSections_frame (s : State) :
    s.loadSections.hoses = s.hoses ∧ s.loadSections.home = s.home ∧
    s.loadSections.views = s.views ∧ s.loadSections.pumps = s.pumps ∧
    s.loadSections.shut = s.shut ∧ s.loadSections.link = s.link ∧
    s.loadSections.store = s.store ∧ s.loadSections.nv.reservations = s.nv.reservations ∧
    s.loadSections.flags &&& s.flags = s.flags ∧ s.loadSections.cfg.data = s.store.config ∧
    s.loadSections.cfg.fault = s.cfg.fault ∧
    ∀ t : Tank, s.loadSections.cfg.homeOf[t] =
      if s.loadSections.sectionValid .tanks = true then stationOf s.store.config.tanks[t].home
      else s.cfg.homeOf[t] := by
  have e := State.readStore_end s inConfig
  have w := (State.readStore_wordsRead s inConfig).rest
  unfold State.loadSections
  dsimp only
  refine ⟨?_, e.home, e.views, e.pumps, e.shut, e.link, ?_, e.reservations, e.flags, ?_, ?_,
    fun t => ?_⟩
  · rw [w]; rfl
  · rw [w]; rfl
  · rw [w]; rfl
  · rw [w]; rfl
  · rw [w]
    simp only [State.modCfg, State.sectionValid, Cfg.takeHomes]
    split <;> simp

end Sys2Proof.Machine
end

