-- ==== Sys2Proof/Laws/Queue.lean ====
section
/-! SUPPORT. What the shared operations on the transmit queue can do (R142 to R145): pending offers, the
SPILL of a bay cause, the beacon, the next summary, a failed attempt; and the slot that a record write fills (R160). -/

namespace Sys2Proof.Machine

/-- A pending offer that enters changes the link alone. -/
theorem State.enterPending_link (s : State) :
    s.enterPending = { s with link := s.enterPending.link } := by
  unfold State.enterPending
  split
  · split
    · unfold State.enterPump; dsimp only; split <;> rfl
    · unfold State.enterGauge; dsimp only; split <;> rfl
    · rfl
    · rfl
  · rfl

/-- Free places filled change the link alone. -/
theorem State.fillPlaces_link (s : State) : s.fillPlaces = { s with link := s.fillPlaces.link } := by
  have h : ∀ (l : List Nat) (s : State),
      l.foldl (fun s _ => s.enterPending) s =
        { s with link := (l.foldl (fun s _ => s.enterPending) s).link } := by
    intro l
    induction l with
    | nil => intro s; rfl
    | cons _ l ih =>
      intro s
      simp only [List.foldl_cons]
      obtain ⟨k, hk⟩ : ∃ k, s.enterPending = { s with link := k } := ⟨_, s.enterPending_link⟩
      rw [hk]
      exact (ih _).trans rfl
  exact h _ s

/-- A SPILL offered changes the link alone. -/
theorem State.offerSpill_link (s : State) (l : List BayCause) :
    s.offerSpill l = { s with link := (s.offerSpill l).link } :=
  (State.fillPlaces_link _).trans rfl

/-- A CREEP record fills no slot of a full log. -/
@[simp] theorem State.slotFilled_creep (s : State) (h : Hose) (r : RecordRun) :
    s.slotFilled (.creep h) r = if s.logFull then none else r.slot := rfl

@[simp] theorem State.slotFilled_fill (s : State) (h : Hose) (r : RecordRun) :
    s.slotFilled (.fill h) r = r.slot := rfl

@[simp] theorem State.slotFilled_receipt (s : State) (r : RecordRun) :
    s.slotFilled .receipt r = r.slot := rfl

@[simp] theorem State.slotFilled_interrupted (s : State) (h : Hose) (r : RecordRun) :
    s.slotFilled (.interrupted h) r = r.slot := rfl

/-- No beacon is unsent exactly when none waits and none is pending. -/
theorem Link.unsentBeacons_eq_zero (l : Link) :
    l.unsentBeacons = 0 ↔ l.waiting 7 = false ∧ l.pendBeacon = none := by
  unfold Link.unsentBeacons Link.waiting TxEntry.waits
  cases l.pendBeacon <;>
    simp [List.filter_eq_nil_iff]

/-- A beacon is unsent exactly when one waits or is pending, as `Link.offer` asks. -/
theorem Link.unsentBeacons_pos (l : Link) :
    l.unsentBeacons ≠ 0 ↔ (l.waiting 7 || l.pendBeacon.isSome) = true := by
  rw [ne_eq, Link.unsentBeacons_eq_zero]
  cases l.waiting 7 <;> cases l.pendBeacon <;> simp

/-- A beacon offered replaces those unsent, and is the one unsent where there was none (R143). -/
theorem Link.unsentBeacons_offer_beacon (l : Link) (b : BeaconFields) :
    (l.offer (.beacon b)).unsentBeacons = Nat.max 1 l.unsentBeacons := by
  by_cases h : (l.waiting 7 || l.pendBeacon.isSome) = true
  · have e : (l.offer (.beacon b)).unsentBeacons = l.unsentBeacons := by
      simp only [Link.offer, h, if_true, Link.unsentBeacons, Link.replaceWaiting, Option.isSome_map]
      congr 1
      induction l.txQueue with
      | nil => rfl
      | cons e q ih =>
        have k : (TxFrame.beacon b).kind = 7 := rfl
        have w : (!e.sending && e.frame.kind == 7) = e.waits 7 := rfl
        cases hw : e.waits 7 <;>
          simp only [List.map_cons, List.filter_cons, k, hw, w, if_true, Bool.false_eq_true,
            if_false, Bool.not_false, Bool.true_and, BEq.rfl, List.length_cons] <;>
          simpa only [k, Nat.add_right_cancel_iff] using ih
    have := (Link.unsentBeacons_pos l).mpr h
    rw [e]
    exact (Nat.max_eq_right (by omega)).symm
  · have h0 : l.unsentBeacons = 0 :=
      Classical.byContradiction fun c => h ((Link.unsentBeacons_pos l).mp c)
    rw [h0]
    obtain ⟨hw, hp⟩ := (Link.unsentBeacons_eq_zero l).mp h0
    have hq : (l.txQueue.filter fun e => !e.sending && e.frame.kind == 7).length = 0 := by
      simp only [Link.unsentBeacons] at h0
      omega
    simp only [Link.offer, h, Bool.false_eq_true, if_false]
    split
    · have k : (TxFrame.beacon b).kind = 7 := rfl
      simp only [Link.enter, Link.noteBeacon, Link.unsentBeacons, List.filter_append, hp,
        List.length_append, hq, k]
      rfl
    · simp [Link.unsentBeacons, hq]

/-- R145: after a failed attempt nothing is being sent. -/
theorem failedQueue_sending (b : Bool) (q : List TxEntry) :
    ∀ e ∈ failedQueue b q, e.sending = false := by
  intro e he
  simp only [failedQueue, List.mem_map] at he
  obtain ⟨x, _, rfl⟩ := he
  rfl

/-- R143: after a failed attempt at most one SPILL waits, where before it at most one waited and one
frame at most was being sent. -/
theorem failedQueue_spillOnce (b : Bool) (q : List TxEntry)
    (hs : (q.filter TxEntry.sending).length ≤ 1) (hw : (q.filter (TxEntry.waits 0)).length ≤ 1) :
    ((failedQueue b q).filter (TxEntry.waits 0)).length ≤ 1 := by
  have e : ((failedQueue b q).filter (TxEntry.waits 0)).length =
      (q.filter fun e => e.frame.kind == 0 &&
        !(e.sending && ((e.frame.kind == 7 && b) ||
          (decide (e.frame.kind ≤ 1) && q.any (TxEntry.waits 0))))).length := by
    simp only [failedQueue, List.filter_map, List.length_map, List.filter_filter]
    congr 1
  rw [e]
  by_cases ha : q.any (TxEntry.waits 0) = true
  · refine le_trans (List.Sublist.length_le ?_) hw
    refine List.monotone_filter_right q fun x hx => ?_
    simp only [ha, Bool.and_true, Bool.and_eq_true, Bool.not_eq_true', beq_iff_eq] at hx
    obtain ⟨h0, h1⟩ := hx
    simp only [h0, TxEntry.waits] at h1 ⊢
    simpa using h1
  · have hn : ∀ x ∈ q, TxEntry.waits 0 x = false := by
      simpa [List.any_eq_true] using ha
    refine le_trans (List.Sublist.length_le ?_) hs
    have : (q.filter fun e => e.frame.kind == 0 &&
        !(e.sending && ((e.frame.kind == 7 && b) ||
          (decide (e.frame.kind ≤ 1) && q.any (TxEntry.waits 0))))) =
        q.filter (fun e => e.sending && e.frame.kind == 0) := by
      refine List.filter_congr fun x hx => ?_
      have := hn x hx
      simp only [TxEntry.waits] at this
      cases h0 : (x.frame.kind == 0) <;> cases h1 : x.sending <;> simp_all
    rw [this]
    refine List.monotone_filter_right q fun x hx => ?_
    simp only [Bool.and_eq_true] at hx
    exact hx.1

/-- R142: the record that the next summary is of is the oldest unannounced one. -/
theorem State.SummaryNext.oldestUnannounced {s : State} {n : Nat} {r : Record}
    (h : s.SummaryNext n r) : s.oldestUnannounced = some (n, r) := by
  obtain ⟨-, h1, h2, h3, -⟩ := h
  unfold State.oldestUnannounced
  have key : ∀ (l : List Nat) (best : Option (Nat × Record)), (∀ k ∈ l, k ∈ s.nv.unannounced) →
     (best = some (n, r) ∨ (n ∈ l ∧ (∀ k x, best = some (k, x) → r.seq.toNat < x.seq.toNat))) →
    l.foldl (fun best slot => match lookupAt slot s.store.log with
      | none => best
      | some e => match best with
        | none => some (slot, e.record)
        | some (b, r) => if e.record.seq.toNat < r.seq.toNat then some (slot, e.record) else some (b, r)) best = some (n, r) := by
    intro l
    induction l with
    | nil => intro best _ h; rcases h with h | h; exact h; simp at h
    | cons a l ih =>
      intro best hl h
      rw [List.foldl_cons]
      refine ih _ (fun k hk => hl k (List.mem_cons_of_mem _ hk)) ?_
      by_cases ha : a = n
      · subst ha
        obtain ⟨e, he, rfl⟩ := Option.map_eq_some_iff.mp h2
        rw [he]
        left
        rcases h with h | ⟨_, h⟩
        · rw [h]; simp
        · cases best with
          | none => rfl
          | some x => 
            obtain ⟨k, x⟩ := x
            have := h k x rfl
            simp [this]
      · cases he : lookupAt a s.store.log with
        | none =>
          rcases h with h | ⟨h, h'⟩
          · left; exact h
          · right; refine ⟨?_, h'⟩
            rcases List.mem_cons.mp h with h | h
            · exact absurd h.symm ha
            · exact h
        | some e =>
          have lt := h3 a e (hl a (by simp)) ha he
          rcases h with h | ⟨h, h'⟩
          · left; rw [h]; simp only; rw [if_neg (by omega)]
          · right; refine ⟨?_, ?_⟩
            · rcases List.mem_cons.mp h with h | h
              · exact absurd h.symm ha
              · exact h
            · cases best with
              | none => intro k x hx; simp at hx; rw [← hx.2]; exact lt
              | some y => 
                obtain ⟨k0, y⟩ := y
                intro k x hx
                simp only at hx
                split at hx
                · simp at hx; rw [← hx.2]; exact lt
                · exact h' k x hx
  exact key _ none (fun _ h => h) (.inr ⟨h1, by simp⟩)

/-- R142: no fill beyond IDLE is below the record that the next summary is of. -/
theorem State.SummaryNext.noLowerFill {s : State} {n : Nat} {r : Record}
    (h : s.SummaryNext n r) : s.noLowerFill r.seq = true := by
  unfold State.noLowerFill
  rw [List.all_eq_true]
  intro k _
  have := h.fills k
  unfold Fill.beyondIdle
  cases hs : (s.fill k).state != .idle
  · rfl
  · cases hq : (s.fill k).seq with
    | none => rfl
    | some q => simpa using this q (by simpa using hs) hq

/-- R142: summaries are offered only after recovery. -/
theorem State.SummaryNext.isRecovered {s : State} {n : Nat} {r : Record}
    (h : s.SummaryNext n r) : s.recovered = true := by
  unfold State.recovered
  rcases h.recovered with h | h <;> simp [h]

/-- R144: with no offer pending, the free places stay free. -/
theorem State.fillPlaces_of_nothing_pending {s : State} (hp : s.link.pendPump = [])
    (hg : s.link.pendGauge = []) (hb : s.link.pendBeacon = none) : s.fillPlaces = s := by
  have e : s.enterPending = s := by
    unfold State.enterPending; rw [hp, hg, hb]; simp
  have : ∀ l : List Nat, l.foldl (fun s _ => s.enterPending) s = s := by
    intro l
    induction l with
    | nil => rfl
    | cons a l ih => rw [List.foldl_cons, e]; exact ih
  exact this _

end Sys2Proof.Machine
end

