-- ==== Sys2Proof/Laws/Requests.lean ====
section
/-! SUPPORT. What the request engine can answer (R178, R179): one lemma for a busy line, one for a
request taken, and the replies of a request answered at once. -/

namespace Sys2Proof.Machine

theorem State.busyLine_clockRequest (s : State) (n : Nat) :
    (s.clockRequest n).busyLine = s.busyLine := rfl

theorem State.busyLine_of_free {s : State} (h : s.LineFree) : s.busyLine = false := by
  simp [State.busyLine, h.1, h.2]

theorem State.busyLine_of_not_free {s : State} (h : ¬ s.LineFree) : s.busyLine = true := by
  simp only [State.LineFree, not_and_or] at h
  simp only [State.busyLine, Bool.or_eq_true, Bool.not_eq_true']
  rcases h with h | h
  · right
    simpa using h
  · left
    exact Option.isSome_iff_ne_none.mpr h

/-- A request on a busy line is turned away. -/
theorem State.judge_busy {s : State} (h : ¬ s.LineFree) (code : Byte) (n : Nat)
    (rule : State → State × Answer) : s.judge code n rule = s.turnedAway code n .busy := by
  simp only [State.judge, State.busyLine_clockRequest, State.busyLine_of_not_free h, if_true]
  rfl

/-- A request on a free line is judged by its own rule. -/
theorem State.judge_free {s : State} (h : s.LineFree) (code : Byte) (n : Nat)
    (rule : State → State × Answer) :
    s.judge code n rule =
      (rule (s.clockRequest n)).1.answer code (rule (s.clockRequest n)).2 := by
  simp [State.judge, State.busyLine_clockRequest, State.busyLine_of_free h]

/-- A request whose rule runs on the state it is taken in. -/
theorem State.request_free {s : State} (h : s.LineFree) (code : Byte) (n : Nat)
    (rule : State → State × Answer) :
    s.request code n rule = (rule (s.atRequest n)).1.answer code (rule (s.atRequest n)).2 :=
  State.judge_free h code n _

/-- A request that only reads. -/
theorem State.readRequest_free {s : State} (h : s.LineFree) (code : Byte) (n : Nat)
    (items : State → List Byte) :
    s.readRequest code n items = s.replied code n .done (items (s.clockRequest n)) :=
  State.judge_free h code n _

theorem State.atRequest_refused (s : State) (n : Nat) (code : Byte) (r : Reason) :
    (s.atRequest n).answer code (.refused r) = s.replied code n .refused [r.code] := rfl

theorem State.atRequest_done (s : State) (n : Nat) (code : Byte) (items : List Byte) :
    (s.atRequest n).answer code (.done items) = s.replied code n .done items := rfl

/-- A rule whose checks all hold. -/
theorem guarded_ok {checks : List (Bool × Reason)} (h : firstFailure checks = none) (s : State)
    (ok : State × Answer) : guarded checks s ok = ok := by
  simp [guarded, h]

/-- A rule refused by the first check that fails. -/
theorem guarded_refused {checks : List (Bool × Reason)} {r : Reason}
    (h : firstFailure checks = some r) (s : State) (ok : State × Answer) :
    guarded checks s ok = (s, .refused r) := by
  simp [guarded, h]

@[simp] theorem firstFailure_nil : firstFailure [] = none := rfl

@[simp] theorem firstFailure_true (r : Reason) (l : List (Bool × Reason)) :
    firstFailure ((true, r) :: l) = firstFailure l := rfl

@[simp] theorem firstFailure_false (r : Reason) (l : List (Bool × Reason)) :
    firstFailure ((false, r) :: l) = some r := rfl

/-- R163: the records that CONSUME_RECORDS names, the announced ones and the others. -/
theorem State.unconsumedUpTo_announced (s : State) (q : U32) :
    ((s.unconsumedUpTo q).filter fun e => s.announced e.1) = s.unconsumedBelow q true ∧
    ((s.unconsumedUpTo q).filter fun e => !s.announced e.1) = s.unconsumedBelow q false := by
  unfold State.unconsumedUpTo State.unconsumedBelow State.announced
  simp only [List.filter_filter]
  constructor <;> apply List.filter_congr <;> intro e _ <;> simp [Bool.and_comm]

end Sys2Proof.Machine
end

