-- ==== Sys2Proof/WellFormed.lean ====
section
/-! DEFINITION. When a command's operands are ones its row can carry. Only the operands whose type
is wider than the packet or frame that carries them are checked. -/

namespace Sys2Proof

/-- Well-formed commands: CONFIG_WRITE carries 1..16 bytes (R173); an UNKNOWN_REQUEST has a code
that is neither a request code nor the fetch's 0x00 and at most 32 payload bytes (R178, R179); a
BAD_FRAME is a packet that R179 answers so; a FETCH has its first byte; a received frame has the
payload its length gives, at most 32 bytes (R135); a length error has a length above 32. -/
def WellFormed : Instr → Bool
  | .configWrite _ _ bytes => decide (1 ≤ bytes.length) && decide (bytes.length ≤ 16)
  | .unknownRequest code payload => Machine.packetUnknown code payload
  | .badFrame packet => Machine.packetBad packet
  | .fetch count => decide (1 ≤ count)
  | .frameReceived _ length payload _ _ =>
    decide (payload.length = length.toNat) && decide (length.toNat ≤ 32)
  | .receptionEndedLengthError length => decide (32 < length.toNat)
  | _ => true

end Sys2Proof
end

