-- ==== Sys2Proof/Tests/Slice0.lean ====
section
/-! SUPPORT. Tests of the model, their expected values from the spec's own text: the form checks,
the worked examples, and for every statement with hypotheses a witness that meets them. -/

namespace Sys2Proof.Tests

open Sys2Proof Sys2Proof.Machine

-- One theorem after another: threads that wait for the kernel would each hold a stack.
set_option Elab.async false

/-! ## Form of the commands -/

/-- Each check of `WellFormed` refuses an ill-formed command. -/
theorem test_wellFormed_refuses :
    WellFormed (.configWrite 1 0 []) = false ∧
    WellFormed (.configWrite 1 0 (List.replicate 17 0)) = false ∧
    WellFormed (.unknownRequest 0x29 []) = false ∧ WellFormed (.unknownRequest 0 []) = false ∧
    WellFormed (.unknownRequest 0x2A (List.replicate 33 0)) = false ∧
    WellFormed (.badFrame []) = false ∧ WellFormed (.badFrame [0, 1]) = false ∧
    WellFormed (.badFrame [0x01, 0, crc8 [0x01, 0]]) = false ∧
    WellFormed (.badFrame [0x2A, 0, crc8 [0x2A, 0]]) = false ∧
    WellFormed (.fetch 0) = false ∧ WellFormed (.frameReceived 0x70 2 [1] 0 0xFF) = false ∧
    WellFormed (.frameReceived 0x70 33 (List.replicate 33 0) 0 0xFF) = false ∧
    WellFormed (.receptionEndedLengthError 32) = false := by decide +kernel

/-- Commands at the edges of those checks are well-formed. -/
theorem test_wellFormed_accepts :
    WellFormed (.configWrite 1 0 [0]) = true ∧
    WellFormed (.configWrite 1 0 (List.replicate 16 0)) = true ∧
    WellFormed (.unknownRequest 0x2A []) = true ∧ WellFormed (.badFrame [0x2A]) = true ∧
    WellFormed (.badFrame [0x01, 0, crc8 [0x01, 0] + 1]) = true ∧
    WellFormed (.badFrame [0x01, 1, 7, crc8 [0x01, 1, 7]]) = true ∧
    WellFormed (.fetch 1) = true ∧
    WellFormed (.frameReceived 0x70 32 (List.replicate 32 0) 0 0xFF) = true ∧
    WellFormed (.receptionEndedLengthError 33) = true := by decide +kernel

/-! ## Worked examples and tables of the spec -/

/-- The bytes of "123456789". -/
def nine : List Byte := [0x31, 0x32, 0x33, 0x34, 0x35, 0x36, 0x37, 0x38, 0x39]

/-- R53, R136: the two checks as they are described, on the usual check string (the values are the
published ones of CRC-16 with start 0xFFFF and of CRC-8 with start 0). -/
theorem test_crc : crc16 nine = 0x29B1 ∧ crc8 nine = 0xF4 := by decide +kernel

/-- R178, R179, R190: packets written out: ARM_HOSE of hose 2 with 2,000 L, a request without
payload, a fetch, an unknown code, a length the request does not allow, a wrong count, no byte. -/
theorem test_transactionOf :
    let arm : List Byte := [0x09, 6, 2, 0, 0x00, 0x1E, 0x84, 0x80]
    transactionOf 0 (arm ++ [crc8 arm]) = some (.armHose 2 0 2000000) ∧
    transactionOf 0 [0x01, 0, crc8 [0x01, 0]] = some .readIdentity ∧
    transactionOf 0 [0, 9, 9] = some (.fetch 3) ∧
    transactionOf 0 [0x2A, 1, 5, crc8 [0x2A, 1, 5]] = some (.unknownRequest 0x2A [5]) ∧
    transactionOf 0 [0x03, 0, crc8 [0x03, 0]] = some (.badFrame [0x03, 0, crc8 [0x03, 0]]) ∧
    transactionOf 0 [0x01, 1, crc8 [0x01, 1]] = some (.badFrame [0x01, 1, crc8 [0x01, 1]]) ∧
    transactionOf 0 [] = none := by decide +kernel

/-- R4's table. -/
theorem test_keff : keffOf 60000 (-1500) = 59910 ∧ keffOf 12345 2500 = 12376 ∧
    keffOf 1000 500 = 1001 ∧ keffOf 9999999 50000 = 10499999 := by decide

/-- R7's table. -/
theorem test_tempFactor : tempFactor 830 315 = 986305 ∧ tempFactor 833 147 = 1000249 ∧
    tempFactor 2000 800 = 900000 ∧ tempFactor 1800 (-400) = 1099000 ∧
    tempOf .openLine = (150, .default) ∧ tempFactor 1800 150 = 1000000 := by decide

/-- Section 2.8's example of the ramp. -/
theorem test_rampStep :
    ([0, 150, 350, 550, 750, 950].map fun c => rampStep c 1000 150 200 250) =
      [150, 350, 550, 750, 950, 1000] ∧
    ([1000, 750, 500].map fun c => rampStep c 250 150 200 250) = [750, 500, 250] ∧
    rampStep 250 0 150 200 250 = 0 ∧ rampStep 350 0 150 200 250 = 0 := by decide

/-- The strapping table of section 5.3. -/
def strap : List (Nat × Nat) :=
  [(0, 120), (500, 9850), (1000, 21400), (2000, 46100), (3000, 71900), (3600, 86300)]

/-- Section 5.3's example of one sample, and R87's edges. -/
theorem test_strapVolume : strapVolume strap 2347 = (55052, false) ∧
    55052 * tempFactor 830 284 / 1000000 = 54439 ∧ strapVolume strap 3640 = (86300, true) ∧
    strapVolume strap 3600 = (86300, false) ∧ strapVolume strap 0 = (120, false) ∧
    strapVolume strap 500 = (9850, false) := by decide

/-- Section 4.12's record of machine 0x0004_2A17. -/
def account : Account :=
  { machineId := 0x00042A17, cls := .haul, fuelCap := 4540, lubeCap := #v[0, 0, 0],
    lastHours := some 312648, rate := some 142500, fillCount := 57, totalFuel := 96412330,
    hoursAccounted := 14820, lubeTotals := #v[0, 0, 0], lubeRes := #v[0, 400, 0],
    source := .reply, stale := true, lastUsed := 0, inUse := true }

/-- Section 4.12: the credit of the fill. -/
theorem test_credit :
    (account.credit 1994206 none (some 312891) 7).1 =
      { account with lastHours := some 312891, rate := some 127392, fillCount := 58,
                     totalFuel := 98406536, hoursAccounted := 15063, source := .own,
                     lastUsed := 7 } ∧
    (account.credit 1994206 none (some 312891) 7).2.credit =
      { dhUsed := 243, rate := some 127392, fillCount := 58 } := by decide

/-- Section 4.12: the lube fill that follows. -/
theorem test_credit_lube :
    (account.credit 18750 (some 1) (some 312891) 7).1 =
      { account with lubeTotals := #v[0, 19, 0], lubeRes := #v[0, 150, 0], fillCount := 58,
                     source := .own, lastUsed := 7 } := by decide

/-! ## States for the tests -/

/-- The part in service as station 1, home to tank 1, the configuration else as shipped. -/
def live : State :=
  let c : ConfigData :=
    { ConfigData.shipped with station := { number := 1, rate := 1, homed := 1 },
                              rules := { ConfigData.shipped.rules with topUp := 100000 } }
  { State.reset with
    phase := .running, clock := 5000, clockUnset := false, flags := 0,
    cfg := { Cfg.reset with data := c, valid := Vector.replicate 5 true, loading := none,
                            homeOf := put (Vector.replicate 8 none) 0 (some 0),
                            parityT := some 1000 },
    store := { Store.shipped with config := c },
    home := put (Vector.replicate 8 none) 0 (some HomeUnit.reset),
    pumps := put (Vector.replicate 8 none) 0 (some Pump.reset),
    link := { Link.reset with number := some 0, rate := 1, line := .idle, beaconT := some 500 },
    hoses := Vector.replicate 4
      { HoseUnit.reset with
        ramp := some 100, hook := { raw := false, debounced := some false, timer := none },
        meter := { Meter.reset with interval := some 100, keff := 100000 } } }

/-- The state with hose 0's fill. -/
def State.fill0 (s : State) (f : Fill) : State := s.modFill 0 fun _ => f
/-- The state with hose 0's meter unit changed. -/
def State.meter0 (s : State) (f : Meter → Meter) : State := s.modMeter 0 f

/-- A fill of kind FILL on tank 1 in a state, preset 2,000 L. -/
def filling (st : FillState) : Fill :=
  { Fill.reset with state := st, kind := some .fill, tank := some 0, product := some 0,
                    preset := some 2000000, seq := some 9, released := true }

/-- Section 1.9: hose 0 as configured there, a fill in FLOWING with a band in use. -/
def fastFill (band : Fin 4) (f : Fill) (chA chB : Nat) : State :=
  let c := put live.cfg.data.hoses 0
    { HoseCfg.shipped with k1000 := 60000, t1 := 20, t2 := 60, t3 := 120,
                           c0 := BitVec.ofInt 32 (-4000), c1 := BitVec.ofInt 32 (-2500),
                           c2 := BitVec.ofInt 32 (-1500), c3 := BitVec.ofInt 32 (-800) }
  State.meter0 (State.fill0
      { live with cfg := { live.cfg with data := { live.cfg.data with hoses := c } } } f)
    fun m => { m with band := band, keff := 59910, chA := chA, chB := chB }

/-- The state that a command leaves. -/
def after (c : Instr) (s : State) : State :=
  match exec c s with
  | .next t => t
  | .fault _ => s
  | .refused _ => s

/-- R187: a cause list is sent in ascending number, and a receipt context that is absent has tank 0. -/
theorem test_lists :
    causesItem (some [(3, 2), (1, 0xFF), (3, 0), (2, 0xFF)]) = [4, 1, 0xFF, 2, 0xFF, 3, 0, 3, 2] ∧
    causesItem none = [0xFF] ∧ receiptItems 2 none = 0 :: List.replicate 15 0xFF := by decide +kernel

/-- R145: a newer beacon that a SPILL displaces in the same attempt still ends the older one. -/
theorem test_newer_beacon_displaced :
    let b := { beaconOf [] with lane := 1 }
    let full := { live.link with
      line := .sending,
      txQueue := { frame := .beacon b, sending := true } ::
        List.replicate 6 { frame := .query 7, sending := false } }
    let l := (full.offer (.beacon b)).offer (.spill [.estop])
    l.txQueue.length = 8 ∧ l.pendBeacon = some b ∧
    (l.failAttempt.txQueue.map fun e => e.frame.kind) = List.replicate 6 5 ++ [0] := by decide +kernel

/-- Section 1.9, interval 1: volumes, residues and temperature sum. -/
theorem test_interval_fill :
    let t := after (.measurementIntervalEnd 0 (.value 315)) (fastFill 2 (filling .flowing) 90 91)
    (t.fill 0).gross = 1502 ∧ (t.fill 0).grossRes = 15180 ∧ (t.fill 0).net = 1481 ∧
      (t.fill 0).netRes = 430110 ∧ (t.fill 0).tempSum = 473130 := by decide +kernel

/-- Section 1.9, interval 3, from what interval 2 leaves: the band changes first. -/
theorem test_interval_band :
    let t := after (.measurementIntervalEnd 0 (.value 316)) (fastFill 2
      { filling .flowing with gross := 2971, grossRes := 7390, net := 2930, netRes := 312155,
                              tempSum := 935865 } 55 54)
    (t.meter 0).band = 1 ∧ (t.meter 0).keff = 59850 ∧ (t.fill 0).gross = 3890 ∧
      (t.fill 0).grossRes = 5240 ∧ (t.fill 0).net = 3836 ∧ (t.fill 0).netRes = 650173 ∧
      (t.fill 0).tempSum = 1226269 := by decide +kernel

/-- Section 9.4: a record of hose 0's fill. -/
def record : Record :=
  { seq := 9, kind := .fill, hose := some 0, tank := 0, product := 0, lubeSlot := none,
    machineId := some 7, cls := some .haul, hours := none, preset := some 2000000, net := 1500,
    gross := some 1520, tempAvg := some 150, startTime := 100, endTime := 200,
    endCause := some .preset, credit := none, damaged := false, receipt := none,
    flags := { fill := FillFlags.clear, negative := false, startDegraded := false,
               endDegraded := false, overStrap := false } }

/-- The record of hose 0's fill being written to slot 4, slot 3 holding an UNCONSUMED record. -/
def writing : State :=
  { live with
    pending := [.recordWriteComplete],
    store := { live.store with
      log := [(3, { record := record, totalled := true, consumed := false })],
      locks := put (Vector.replicate 5 false) 0 true },
    nv := { live.nv with queue := [.record (.fill 0) record], reservations := 1,
                         run := some { slot := some 4, seq := 10, reads := 0 } } }
    |> fun s => State.fill0 s { filling .closing with net := 1500, endCause := some .preset }

/-- A lane shutdown stands. -/
def shut : State := { live with shut := { live.shut with latch := true }, pending := [.clockTick] }

/-- Hose 0's fill is HELD by the operator, its hold timer running. -/
def paused : State :=
  { State.fill0 live { filling .held with
      holds := { HoldSet.empty with operator := true }, holdT := some 180000 } with
    pending := [.holdTimerExpiry 0] }

/-! ## Witnesses: what meets the hypotheses of the statements -/

theorem witness_StepRunsFront :
    { live with pending := [.clockTick, .readStatus] }.pending = .clockTick :: [.readStatus] ∧
    live.pending = [] := by decide +kernel

/-- R134, R152: one millisecond with no command: the timers fall by 1, the line in WAIT is IDLE and the
number that waited for it is the own one. -/
theorem test_elapse :
    let s := live.modLink fun l => { l with
      line := .wait, idleCount := 8, dropped := true, next := some (some 6, 2) }
    let t := s.elapse
    step s = .next t ∧ t.link.line = .idle ∧ t.link.idleCount = 10 ∧ t.link.dropped = false ∧
    t.link.number = some 6 ∧ t.link.rate = 2 ∧ t.link.next = none ∧ t.ownNumber = some 6 ∧
    t.link.beaconT = some 499 ∧ t.cfg.parityT = some 999 ∧
    t.hoses[(0 : Hose)].ramp = some 99 ∧ (t.meter 0).interval = some 99 ∧
    s.ownNumber = some 0 := by
  refine ⟨rfl, ?_⟩; decide +kernel

theorem witness_LineFree : live.LineFree ∧ ¬ State.reset.LineFree ∧
    ¬ { live with term := { live.term with engine := some 0x10 } }.LineFree := by
  delta State.LineFree; decide +kernel

theorem witness_Resets : live.LineFree ∧ live.nv.queue = [] := by
  delta State.LineFree; decide +kernel

/-- R154: a record write cut after each of its steps, a configuration write of five bytes from byte 3 on
after its first word, an entry checkpoint before its first step, after each of its steps: the high-water
is its first word (R156), and the number of its fill is the next one again unless its marker is written
(R26), also when it is cut a second time. -/
theorem witness_Resets_torn :
    let q (j : Job) := { writing with nv := { writing.nv with queue := [j] } }
    let rec' (n : Nat) := (after (.coldReset n) writing).store
    let cp : Checkpoint := { seq := 12, tank := 0, product := 0, machine := none, preset := 2000000,
                             net := 0, gross := 0, startTime := 5, flags := FillFlags.clear }
    let c (n : Nat) := (after (.warmReset n) (q (.checkpoint 0 true cp))).store
    writing.nv.queue = [.record (.fill 0) record] ∧
    writing.nv.run = some { slot := some 4, seq := 10, reads := 0 } ∧
    rec' 0 = writing.store ∧
    ([1, 2, 3, 4].map fun n => ((lookupAt 4 (rec' n).log).map LogEntry.totalled)) =
      [none, some false, some false, some true] ∧
    ([2, 3].map fun n => (rec' n).totals[(0 : Tank)].total) = [0, 1500] ∧
    ([0, 1, 2, 3].map fun n => (c n).highWater) = [0, 12, 12, 12] ∧ (c 2).newerCopy 0 = none ∧
    ([0, 1, 2, 3].map fun n => (c n).nextSequence) = [10, 10, 10, 13] ∧
    ([1, 3].map fun n => ((c 1).checkpointSteps n 0 true cp).nextSequence) = [10, 13] ∧
    ((c 3).newerCopy 0).isSome = true ∧
    ((after (.coldReset 1) (q (.configWrite .rules 3 [9, 9, 9, 9, 9]))).store.config =
      writeSection writing.store.config .rules 3 [9]) ∧
    (after (.coldReset 1) (q (.epochUpdate 7))).store.epoch = 7 ∧
    (after (.coldReset 9) (q (.consume [3] 0))).store = writing.store := by decide +kernel

theorem witness_StepKeepsTablesAndQueues :
    writing.tablesOk = true ∧ writing.queuesOk = true ∧
    step writing = .next (after .recordWriteComplete { writing with pending := [] }) :=
  ⟨by decide +kernel, by decide +kernel, rfl⟩

theorem witness_StepKeepsShutdown : shut.ShutdownKept ∧ shut.shutdownStands = true ∧
    step shut = .next (after .clockTick { shut with pending := [] }) :=
  ⟨by delta State.ShutdownKept; decide +kernel, by decide +kernel, rfl⟩

theorem witness_StepKeepsHoldsCoilAndPumps :
    paused.HoldsOk ∧ paused.CoilOk ∧ paused.PumpsHomed ∧ (paused.fill 0).state = .held ∧
    step paused = .next (after (.holdTimerExpiry 0) { paused with pending := [] }) :=
  ⟨by delta State.HoldsOk; decide +kernel, by delta State.CoilOk; decide +kernel,
   by delta State.PumpsHomed; decide +kernel, by decide +kernel, rfl⟩

theorem witness_UnconsumedNeverOverwritten :
    writing.tablesOk = true ∧
    lookupAt 3 writing.store.log =
      some { record := record, totalled := true, consumed := false } ∧
    step writing = .next (after .recordWriteComplete { writing with pending := [] }) :=
  ⟨by decide +kernel, by decide +kernel, rfl⟩

theorem witness_StoreChangesOnlyByJobs :
    exec .clockTick live = .next (after .clockTick live) ∧ writing.store.locks[(0 : Fin 5)] = true ∧
    step writing = .next (after .recordWriteComplete { writing with pending := [] }) :=
  ⟨rfl, by decide +kernel, rfl⟩

/-- The premises within `EventCloseFrame` and `EventCloseFollowUps`: visits that do not end or are
not open, fills that do not demand or are past STARTING, an ENDING visit and a close that wait for
a fill, a controller, free places. -/
theorem witness_EventCloseFollowUps :
    let u := { State.fill0 live (filling .settling) with
      visit := { Visit.reset with state := .ending }, closePending := true,
      cfg := { live.cfg with reloadPending := true } }
    let t := u.settle u
    t.visit.state = .ending ∧ t.closePending = true ∧ t.cfg.reloadPending = true ∧
    t.cfg.loading = none ∧ t.pumps[(0 : Tank)].isSome = true ∧
    ({ live with visit := { Visit.reset with state := .opened } }.settle live).visit.state =
      .opened ∧
    u.link.pendsOnce = true ∧ t.link.hasPlace = true := by
  decide +kernel

/-- `writing` with two unannounced records, the younger in the lower slot. -/
def announcing : State :=
  { writing with
    store := { writing.store with
      log := [(3, { record := record, totalled := true, consumed := false }),
              (5, { record := { record with seq := 8 }, totalled := true, consumed := false })] },
    nv := { writing.nv with unannounced := [3, 5] } }

/-- R142: the summary of the record of the lowest sequence enters, but not while a beacon is being
sent. -/
theorem witness_EventCloseFollowUps_summary :
    let u := announcing
    let b := u.modLink fun l => { l with
      line := .sending, txQueue := [{ frame := .beacon (beaconOf []), sending := true }] }
    (∀ x ∈ u.link.txQueue, x.frame.kind ≠ 4) ∧ u.phase = .running ∧ (u.fill 0).seq = some 9 ∧
    (u.fill 0).state ≠ .idle ∧
    u.tidyQueue.link.txQueue.map (fun x => x.frame.kind) = [4] ∧
    (∃ e ∈ u.tidyQueue.link.txQueue, e.frame = .summary 5 { record with seq := 8 }.summary) ∧
    b.tidyQueue.link.txQueue = b.link.txQueue := by
  decide +kernel

/-- R142: what the next summary asks for holds of the record with sequence 8. -/
theorem witness_EventCloseFollowUps_next :
    announcing.SummaryNext 5 { record with seq := 8 } where
  recovered := by decide +kernel
  unannounced := by decide +kernel
  entry := by decide +kernel
  oldest k x hk h5 hx := by
    have hk : k = 3 ∨ k = 5 := by
      have : announcing.nv.unannounced = [3, 5] := by decide +kernel
      rw [this] at hk
      simpa using hk
    obtain rfl | rfl := hk
    · have : lookupAt 3 announcing.store.log =
          some { record := record, totalled := true, consumed := false } := by decide +kernel
      rw [← Option.some.inj (this.symm.trans hx)]
      decide +kernel
    · exact absurd rfl h5
  fills h q _ hq := by
    have : ∀ h : Hose, (announcing.fill h).seq.all (fun q => decide (8 ≤ q.toNat)) = true := by
      decide +kernel
    have := this h
    rw [hq] at this
    exact of_decide_eq_true this

/-- R142, R144: it is offered into a place that is free; after that all it asks for holds still. -/
theorem witness_EventCloseFollowUps_offered :
    let u := announcing
    let t := u.tidyQueue
    u.link.hasPlace = true ∧ t.link.hasPlace = true ∧ u.link.pendPump = [] ∧
    u.link.pendGauge = [] ∧ u.link.pendBeacon = none ∧ t.link.pendBeacon = none ∧
    (∀ x ∈ u.link.txQueue, x.frame.kind ≠ 4 ∧ x.frame.kind ≠ 7) ∧
    (∀ x ∈ t.link.txQueue, x.frame.kind ≠ 7) ∧ t = { u with link := t.link } := by
  decide +kernel

theorem witness_EventCloseFrame :
    live.visit.state ≠ .ending ∧ live.visit.state ≠ .opened ∧ live.closePending = false ∧
    (live.fill 0).demands = false ∧ (paused.fill 0).state ≠ .starting := by decide +kernel

/-- Tank 1's pump runs. -/
def pumping : State :=
  live.modView 0 fun v => { v with pump := .known .running none, state := .normal,
                                   stock := some { litres := 48200, ml := 0 }, noValue := false }

/-- R140, R186: the close of an event that changed the lane state or the demand mask forms one early
beacon, which replaces the one that waits, or waits for the STATION section; that of any other event, or
before start-up has ended, forms none. -/
theorem witness_EventCloseFollowUps_beacon :
    let u := { live with laneClosed := true }
    let old := u.modLink fun l => { l with
      txQueue := [{ frame := .beacon (beaconOf []), sending := false }] }
    let invalid := { live with
      laneClosed := true, cfg := { live.cfg with valid := put live.cfg.valid 0 false } }
    let beacons (s : State) := s.link.txQueue.map TxEntry.frame
    u.started = true ∧ (u.settle live).laneClosed ≠ live.laneClosed ∧
    (u.settle live).link.ownBeacon = some u.beaconFields ∧
    beacons (u.settle live) = [.beacon u.beaconFields] ∧
    (u.settle live).link.beaconT = some 500 ∧ beacons (old.settle live) = [.beacon u.beaconFields] ∧
    beacons (invalid.settle live) = [] ∧ invalid.sectionValid .station = false ∧
    (invalid.settle live).link.ownBeacon = some invalid.beaconFields ∧
    (u.settle u).link = u.link ∧
    ({ u with phase := .beacon }.settle live).link.ownBeacon = u.link.ownBeacon ∧
    ((State.fill0 pumping (filling .flowing)).settle pumping).demandMask ≠ pumping.demandMask ∧
    ((State.fill0 pumping (filling .flowing)).settle pumping).link.ownBeacon.map
      BeaconFields.demand = some 1 := by decide +kernel

theorem witness_FillEntersFlowing :
    let s := State.fill0 pumping (filling .starting)
    (s.fill 0).state = .starting ∧ (s.fill 0).holds.isEmpty = true ∧
    (s.tagGoverns 0 = true → s.tagConfirmed = true) ∧ (s.fill 0).tank = some 0 ∧
    s.views[(0 : Tank)].pump.isRunning = true ∧ s.homeSilent 0 = false ∧
    (s.fill 0).valveCmd = 0 ∧ s.nv.queue.tail.any (Job.isCheckpointOf 0) = false ∧
    s.nv.held.any (Job.isCheckpointOf 0) = false ∧ s.nv.queue.length < 12 ∧
    (live.fill 0).state ≠ .starting := by decide +kernel

/-- Each unmet condition, of the test of one fill and at the close of an event: a hold, a tag that
governs and is not CONFIRMED, no tank, no pump, a SILENT home; and the close with all met. -/
theorem witness_FillEntersFlowing_unmet :
    let s (f : Fill) := State.fill0 pumping f
    let f := filling .starting
    let held := s { f with holds := { HoldSet.empty with operator := true } }
    let tagless := { s f with visit := { Visit.reset with
      state := .opened, tagId := some { serial := 5, machineId := 7 } } }
    let quiet := (State.fill0 live f)
    let far := (s f).modPeer 2 fun e => { e with silent := true }
    let silent := { far with home := Vector.replicate 8 none, pumps := Vector.replicate 8 none,
                             cfg := { far.cfg with
                               homeOf := put (Vector.replicate 8 none) 0 (some 2) } }
    let up := (s f).modPump 0 fun p => { p with state := .running }
    (held.fill 0).holds.isEmpty = false ∧ (held.fill 0).state = .starting ∧
    tagless.tagGoverns 0 = true ∧ tagless.tagConfirmed = false ∧
    ((s { f with tank := none }).fill 0).tank = none ∧
    quiet.views[(0 : Tank)].pump.isRunning = false ∧
    quiet.syncDemands.views[(0 : Tank)].pump.isRunning = false ∧
    silent.homeSilent 0 = true ∧ (silent.settle silent).fill 0 = f ∧
    (held.settle held).fill 0 = held.fill 0 ∧
    up.syncDemands.views[(0 : Tank)].pump.isRunning = true ∧ up.homeSilent 0 = false ∧
    ((up.settle up).fill 0).state = .flowing := by decide +kernel

/-- The clauses on packets and on operands that no packet carries. -/
theorem witness_TerminalLine_packets :
    let p : List Byte := [0x01, 0]
    requestOf 0 0x03 [2] = some (.readHose 2) ∧
    ([0x03, 1, 2] : List Byte) = [0x03, BitVec.ofNat 8 ([2] : List Byte).length] ++ [2] ∧
    packetBad (p ++ [crc8 p]) = false ∧ packetBad (p ++ [crc8 p + 1]) = true ∧
    packetBad [0x2A] = true ∧ packetBad [0x01, 33, 0] = true ∧
    (0x29 : Byte).toNat ≤ 0x29 ∧ 0x29 < (0x2A : Byte).toNat ∧
    (List.replicate 32 (0 : Byte)).length ≤ 32 ∧ 32 < (List.replicate 33 (0 : Byte)).length ∧
    (after (.badFrame [0x2A]) live).term.slot =
      some { code := 0x2A, status := .badFrame, items := [] } ∧
    after (.fetch 0) live = live ∧ (after (.fetch 1) live).term.dataOut = [0xFF] := by
  decide +kernel

theorem witness_TerminalLine :
    requestPacket .readStatus = some (0x02, 0) ∧ ¬ State.reset.LineFree ∧ live.LineFree ∧
    live.term.slot = none ∧ (after .calKey live).term.slot =
      some { code := 0x26, status := .done, items := [] } := by
  delta State.LineFree; decide +kernel

theorem witness_EventFlags :
    let s := { live with flags := 0x401, clockUnset := true }
    exec .clockTick s = .next (after .clockTick s) ∧ s.flagSet .started = true ∧
    s.flagSet .clockUnset = true ∧ (0x002#16).getLsbD EventFlag.started.bit = false ∧
    exec (.setClock 5) s = .next (after (.setClock 5) s) ∧ s.LineFree :=
  ⟨rfl, by decide +kernel, by decide +kernel, by decide, rfl,
   by delta State.LineFree; decide +kernel⟩

theorem witness_ClockRule :
    live.LineFree ∧ exec .readStatus live = .next (after .readStatus live) :=
  ⟨by delta State.LineFree; decide +kernel, rfl⟩

/-- An account record at position 5. -/
def accounted : State :=
  { live with accounts := { live.accounts with records := [(5, account)] } }

theorem witness_ReadsChangeNothing :
    accounted.LineFree ∧ (∀ e ∈ accounted.accounts.records, e.2.machineId ≠ 1) ∧
    (5, account) ∈ accounted.accounts.records ∧
    (∀ e ∈ accounted.accounts.records, e.2.machineId = account.machineId → e = (5, account)) ∧
    lookupAt 5 accounted.accounts.records = some account ∧
    (∀ e ∈ accounted.accounts.records, e.1 ≠ 95) ∧
    sectionOf 0 = none ∧ sectionOf 6 = none ∧ sectionOf 1 = some .station ∧
    sectionOf 5 = some .rules ∧ sectionSize .station < 0 + 32 ∧
    0 + 3 ≤ sectionSize .station := by
  delta State.LineFree; decide +kernel

/-- R162, R187, R192: the record of the lowest sequence among the UNCONSUMED ones, a CONSUMED one by its
sequence, none; a write in progress that has taken a slot.
The account record with its 62 bytes of fields. -/
theorem witness_ReadsChangeNothing_record :
    let e (q : U32) (c : Bool) : LogEntry :=
      { record := { record with seq := q }, totalled := true, consumed := c }
    let s := { live with store := { live.store with
      log := [(3, e 9 false), (5, e 8 false), (6, e 7 true)] } }
    let w := { s with nv := { writing.nv with run := some { slot := some 5, seq := 10, reads := 0 } } }
    let items (c : Instr) (s : State) := (after c s).term.slot.map Reply.items
    s.LineFree ∧ s.takenSlot = none ∧
    s.readLog = s.store.log ∧
    items (.readRecord none) s = some (1 :: { record with seq := 8 }.bytes 5 2 true false) ∧
    items (.readRecord (some 7)) s = some (1 :: { record with seq := 7 }.bytes 6 3 true false) ∧
    items (.readRecord (some 6)) s = some [0] ∧ items (.readRecord none) live = some [0] ∧
    w.takenSlot = some 5 ∧ w.nv.run.bind RecordRun.slot = some 5 ∧
    (record.bytes 5 2 true false).take 8 = [0, 0, 0, 9, 1, 18, 0, 5] ∧
    account.Shown.length = 62 ∧ account.Shown.take 7 = [0, 4, 0x2A, 0x17, 1, 0x11, 0xBC] := by
  delta State.LineFree; decide +kernel

/-- R164, R173, R174: words read in error. Of the record of slot 3 one word has a single and one a double
error: it is shown DAMAGED, each is counted and captured, and the NV flag is set. Of the section bytes 3 to
4 the words 0 and 1 are read, word 2 is not; a double error in the lock word locks. -/
theorem witness_ReadsChangeNothing_errors :
    let err (a : Area) (w : Nat) (d : Bool) : StoreError := { area := a, word := w, double := d }
    let s := live.modStore fun st => { st with
      log := writing.store.log,
      errs := [err (.slot 3) 1 false, err (.slot 3) 2 true, err (.config .rules) 0 false,
               err (.config .rules) 1 true, err (.config .rules) 2 true, err (.lock .rules) 0 true] }
    let t := after (.readRecord none) s
    let u := after (.configRead 5 3 2 0) s
    s.LineFree ∧ sectionOf 5 = some .rules ∧ (5 : Nat) ≤ sectionSize .rules ∧
    t.nv.sc = 1 ∧ t.nv.dc = 1 ∧ t.nv.scCap = some (.slot 3, 1) ∧ t.nv.dcCap = some (.slot 3, 2) ∧
    t.flagSet .nv = true ∧
    t.term.slot.map Reply.items = some (1 :: record.bytes 3 2 (s.announced 3) true) ∧
    u.nv.sc = 1 ∧ u.nv.dc = 2 ∧ u.nv.scCap = some (.config .rules, 0) ∧
    u.nv.dcCap = some (.config .rules, 1) ∧
    u.term.slot.map (fun x => x.items.drop 2) = some [1, 1, 1] ∧
    (after (.configRead 5 3 2 1) s).nv = s.nv := by
  delta State.LineFree; decide +kernel

/-- R93, R103: the last GAUGE items end with the clock at its arrival, before the seconds since. -/
theorem test_lastGaugeItems :
    lastGaugeItems 105 (some {
      level := 3, recon := .balanced, receipt := true, overStrap := false, tempDefault := false,
      arrived := 100 }) =
      [0, 3, 1, 1, 0, 0, 0, 0, 0, 100, 0, 0, 0, 5] := by decide

/-- Hose 0's meter with counts on both channels. -/
def counted (s : State) (a b : Nat) : State := State.meter0 s fun m => { m with chA := a, chB := b }

theorem witness_MeterUnit :
    (live.meter 0).interval.isSome = true ∧ live.MetersOperate ∧
    Nat.min ((counted live 5000 4998).meter 0).chA 4095 = 4095 ∧
    ¬ { live with cfg := { live.cfg with valid := Vector.replicate 5 false } }.MetersOperate := by
  delta State.MetersOperate; decide +kernel

theorem witness_IntervalToFill :
    let s := counted (State.fill0 live { filling .flowing with net := 9999200 }) 1450 1450
    (s.meter 0).interval.isSome = true ∧ s.MetersOperate ∧ (s.fill 0).state = .flowing ∧
    ((after (.measurementIntervalEnd 0 .openLine) s).meter 0).tempStatus = .default ∧
    (s.fill 0).flags.tempDefault = false ∧ (s.fill 0).flags.limit = false ∧
    ((after (.measurementIntervalEnd 0 .openLine) s).fill 0).net = 9999999 := by
  delta State.MetersOperate; decide +kernel

/-- An accumulation. -/
def creep : Creep :=
  { tank := 0, product := 0, gross := 1990, net := 1985, grossRes := 0, netRes := 0, tempSum := 298500,
    flags := { overrange := false, tempDefault := false, limit := false }, startTime := 50,
    quietT := some 60000, raised := false }

theorem witness_IntervalToCreep :
    let s := counted (State.meter0 live fun m => { m with creep := some creep }) 20 20
    (s.meter 0).interval.isSome = true ∧ s.MetersOperate ∧ (s.fill 0).state = .idle ∧
    (s.meter 0).creep = some creep ∧ creep.raised = false ∧ s.shut.latch = false ∧
    (((after (.measurementIntervalEnd 0 (.value 150)) s).meter 0).creep.any fun c =>
      (s.hoseCfg 0).creepLimit.toNat < c.gross) = true ∧
    (live.meter 0).creep = none ∧
    ((after (.measurementIntervalEnd 0 .shorted) live).meter 0).lastN = 0 ∧
    ((after (.measurementIntervalEnd 0 .shorted) (counted live 1 0)).meter 0).lastN = 1 := by
  delta State.MetersOperate; decide +kernel

theorem witness_DetectorsRaise :
    let s := counted (State.meter0 (State.fill0 live (filling .flowing)) fun m =>
      { m with mismatchRun := 4, excessRun := 2 }) 4096 4093
    let v := live.modHose 0 fun u => { u with valve := { timer := some 1, present := false } }
    (s.meter 0).interval.isSome = true ∧ s.MetersOperate ∧
    ¬ ((s.meter 0).chA ≤ (s.meter 0).chB + 2 ∧ (s.meter 0).chB ≤ (s.meter 0).chA + 2) ∧
    (s.meter 0).mismatchRun = 4 ∧ s.hoseFaulted 0 = false ∧ (s.fill 0).running = true ∧
    (s.hoseCfg 0).burst.toNat < (s.meter 0).chA ∧ (s.meter 0).excessRun = 2 ∧
    s.shut.origin = none ∧ s.holdsBay = false ∧
    ((State.fill0 s (filling .armed)).fill 0).waits = true ∧
    v.hoses[(0 : Hose)].valve.timer.isSome = true ∧
    v.hoses[(0 : Hose)].faults.valve = false ∧ v.hoseFaulted 0 = false := by
  delta State.MetersOperate; decide +kernel

/-- Remaining volumes at the close-ahead volume, at the slow-down volume and above it. -/
theorem witness_RemainingVolumeMovesFill :
    let s (n : Nat) := State.fill0 live { filling .flowing with net := n }
    (∀ n ∈ [1998000, 1950000, 1949999], ((s n).meter 0).interval.isSome = true ∧
      (s n).MetersOperate ∧ ((s n).meter 0).chA ≤ ((s n).meter 0).chB + 2 ∧
      ((s n).meter 0).chB ≤ ((s n).meter 0).chA + 2 ∧
      ((s n).meter 0).chA ≤ ((s n).hoseCfg 0).burst.toNat ∧ ((s n).fill 0).state = .flowing ∧
      ((s n).fill 0).preset.isSome = true) ∧
    ((after (.measurementIntervalEnd 0 .openLine) (s 1998000)).fill 0).state = .settling ∧
    ((after (.measurementIntervalEnd 0 .openLine) (s 1950000)).fill 0).state = .slowing ∧
    ((after (.measurementIntervalEnd 0 .openLine) (s 1949999)).fill 0).state = .flowing := by
  delta State.MetersOperate; decide +kernel

/-- A net just below and at the checkpoint mark, with no checkpoint of the hose waiting and with one
waiting behind the job in progress or held. -/
theorem witness_RemainingVolumeMovesFill_mark :
    let s (n : Nat) (q h : List Job) := State.fill0
      { live with nv := { live.nv with queue := q, held := h } }
      { filling .flowing with net := n, nextMark := some 50000 }
    let cp : Checkpoint := { seq := 12, tank := 0, product := 0, machine := none, preset := 2000000,
                             net := 1, gross := 1, startTime := 5, flags := FillFlags.clear }
    let old := Job.checkpoint 0 false cp
    let e := Instr.measurementIntervalEnd 0 .openLine
    ((after e (s 49999 [] [])).fill 0).nextMark = some 50000 ∧
    ((after e (s 50000 [] [])).fill 0).nextMark = some 100000 ∧
    (after e (s 50000 [] [])).nv.queue.length = 1 ∧
    (s 50000 [] []).nv.queue.tail.any (Job.isCheckpointOf 0) = false ∧
    (s 50000 [] []).nv.held.any (Job.isCheckpointOf 0) = false ∧
    (s 50000 [.lock .rules, old] []).nv.queue.tail.any (Job.isCheckpointOf 0) = true ∧
    (s 50000 [] [old]).nv.held.any (Job.isCheckpointOf 0) = true ∧
    ((after e (s 50000 [.lock .rules, old] [])).nv.queue.map (Job.isCheckpointOf 0)) =
      [false, true] := by decide +kernel

/-- R41, R44: a fill in SETTLING at its checkpoint mark, with pulses and without; R32: the no-flow timer
of one in FLOWING. -/
theorem witness_RemainingVolumeMovesFill_settling :
    let f := { filling .settling with
      valveCmd := 0, net := 60000, nextMark := some 50000, endCause := some .preset,
      settleQuietT := some 7, settleLimitT := some 900 }
    let s (n : Nat) := counted (State.fill0 live f) n n
    let t (n : Nat) := after (.measurementIntervalEnd 0 .openLine) (s n)
    let g (n : Nat) := after (.measurementIntervalEnd 0 .openLine)
      (counted (State.fill0 live { filling .flowing with noFlowT := some 7 }) n n)
    ((s 4).fill 0).state = .settling ∧ ((s 4).fill 0).preset.isSome = true ∧
    ((t 0).fill 0).nextMark = some 100000 ∧ (t 0).nv.queue.length = 1 ∧
    ((t 0).fill 0).settleQuietT = some 7 ∧ ((t 4).fill 0).settleQuietT = some 2000 ∧
    ((t 4).fill 0).endCause = some .preset ∧ ((g 0).fill 0).noFlowT = some 7 ∧
    ((g 4).fill 0).noFlowT = some ((live.hoseCfg 0).noFlow.toNat * 1000) := by decide +kernel

/-- A closed creep of hose 0. -/
def closedCreep : ClosedCreep :=
  { tank := 0, product := 0, gross := 10, net := 10, tempSum := 1500, startTime := 1, endTime := 2,
    flags := { overrange := false, tempDefault := false, limit := false }, deferred := false }

theorem witness_CreepEnds :
    let s := State.meter0 live fun m => { m with creep := some creep }
    let w := State.meter0 s fun m => { m with waitCreep := some closedCreep }
    let b := { s with nv := { s.nv with queue := [.record (.creep 1) record] } }
    (s.meter 0).creep = some creep ∧ creep.quietT.isSome = true ∧
    (∀ k : Hose, (s.meter k).waitCreep = none) ∧ s.noCreepJob = true ∧
    tankOf (s.hoseCfg 0).tank = some 0 ∧ 0 < creep.net ∧ s.nv.queue.length < 12 ∧
    b.noCreepJob = false ∧ (b.meter 0).waitCreep = none ∧
    (w.meter 0).waitCreep = some closedCreep ∧ s.sectionValid .hoses = true ∧
    { s with cfg := { s.cfg with valid := put s.cfg.valid 1 false } }.sectionValid .hoses =
      false := by decide +kernel

/-- Hose 0's hook with a debounce timer running. -/
def hooked (raw : Bool) (debounced : Option Bool) (s : State) : State :=
  s.modHose 0 fun u => { u with hook := { raw := raw, debounced := debounced, timer := some 1 } }

theorem witness_NozzleHook :
    live.hoses[(0 : Hose)].hook.raw ≠ true ∧
    live.hoses[(0 : Hose)].hook.debounced ≠ some true ∧
    (hooked true (some false) live).hoses[(0 : Hose)].hook.timer.isSome = true ∧
    (hooked true (some false) live).hoses[(0 : Hose)].hook.raw = true ∧
    (hooked true none live).hoses[(0 : Hose)].hook.debounced ≠ some false ∧
    ((hooked true (some false) (State.fill0 live (filling .armed))).fill 0).state = .armed ∧
    live.tag.act = .off ∧ live.mayActivate = true ∧
    (hooked false (some true) paused).hoses[(0 : Hose)].hook.raw = false ∧
    (hooked false (some true) paused).hoses[(0 : Hose)].hook.debounced = some true ∧
    ((hooked false (some true) paused).fill 0).running = true ∧
    ((hooked false (some true) (State.fill0 live (filling .starting))).fill 0).state =
      .starting := by decide +kernel

/-- The state with a fill of hose 0 and each of its timers running. -/
def timed (st : FillState) : State :=
  State.fill0 live { filling st with
    armT := some 1, startT := some 1, noFlowT := some 1, holdT := some 1, tagLossT := some 1,
    settleQuietT := some 1, settleLimitT := some 1 }

theorem witness_FillTimers :
    ((timed .armed).fill 0).state = .armed ∧ ((timed .armed).fill 0).armT.isSome = true ∧
    ((timed .starting).fill 0).startT.isSome = true ∧ ((timed .starting).fill 0).tank = some 0 ∧
    (timed .starting).views[(0 : Tank)].pump.isRunning = false ∧
    (pumping.modFill 0 fun _ => (timed .starting).fill 0).views[(0 : Tank)].pump.isRunning =
      true ∧
    pumping.homeSilent 0 = false ∧ ((timed .slowing).fill 0).noFlowT.isSome = true ∧
    ((timed .held).fill 0).holdT.isSome = true ∧ ((timed .held).fill 0).tagLossT.isSome = true := by
  decide +kernel

theorem witness_SettlingCloses :
    ((timed .settling).fill 0).state = .settling ∧ ((timed .settling).fill 0).tank = some 0 ∧
    ((timed .settling).fill 0).settleQuietT.isSome = true ∧
    ((timed .settling).fill 0).settleLimitT.isSome = true ∧
    (timed .settling).nv.queue.length < 12 ∧
    ({ filling .settling with kind := some .prover } : Fill).kind ≠ some .fill := by
  decide +kernel

/-- Hose 0's valve at a command, its fill in a state. -/
def valveAt (st : FillState) (cmd : Nat) : State :=
  State.fill0 live { filling st with valveCmd := cmd }

theorem witness_RampTick :
    (valveAt .flowing 0).hoses[(0 : Hose)].ramp.isSome = true ∧
    ((valveAt .flowing 0).hoseCfg 0).minimum.toNat = 150 ∧
    ((State.fill0 live { filling .flowing with released := false }).fill 0).released = false ∧
    ((valveAt .flowing 0).fill 0).released = true ∧
    ([0, 150, 1000].map fun c => ((after (.rampTick 0 .openLine) (valveAt .flowing c)).fill
      0).valveCmd) = [150, 250, 1000] ∧
    ([150, 249, 250].map fun c => ((after (.rampTick 0 .openLine) (valveAt .settling c)).fill
      0).valveCmd) = [0, 0, 150] ∧
    ((1000 : Int) ≤ (900 : Nat) + 100 ∧ ((900 : Nat) : Int) ≤ 1000 + 100) := by decide +kernel

/-- R32, R41: the no-flow timer starts with the command at the minimum opening, runs on, and stops below
it; the settle quiet timer starts with the command 0. -/
theorem witness_RampTick_timers :
    let tick (s : State) := (after (.rampTick 0 .openLine) s).fill 0
    let runs := State.fill0 live { filling .flowing with valveCmd := 200, noFlowT := some 7 }
    let barred := State.fill0 live { filling .flowing with
      valveCmd := 200, noFlowT := some 7, released := false }
    (tick (valveAt .flowing 0)).noFlowT = some ((live.hoseCfg 0).noFlow.toNat * 1000) ∧
    (tick runs).noFlowT = some 7 ∧ (tick barred).noFlowT = none ∧
    (tick (valveAt .held 900)).noFlowT = none ∧
    (tick (valveAt .settling 150)).settleQuietT = some 2000 ∧
    (tick (valveAt .settling 900)).settleQuietT = none := by decide +kernel

/-- With the HOSES section invalid a command above 0 still falls. -/
theorem witness_RampTick_invalid :
    let s := { valveAt .idle 900 with cfg := { live.cfg with valid := Vector.replicate 5 false } }
    s.hoses[(0 : Hose)].ramp.isSome = true ∧ s.sectionValid .hoses = false ∧
    (s.fill 0).valveCmd = 900 := by decide +kernel

/-- Hose 0 may be armed: a visit is OPEN, with stock in tank 1. -/
def visited : State :=
  { pumping with
    visit := { Visit.reset with
      state := .opened, origin := some .tag, machineId := some 7, cls := some .haul,
      fuelCap := some 4540, lubeCap := some #v[0, 0, 0], hours := some 312884,
      idleT := some 120000, position := some 5 },
    accounts := { live.accounts with records := [(5, account)] } }

/-- A calibration override stands on hose 0, no visit. -/
def proving : State :=
  pumping.modHose 0 fun u => {
    u with override := some { k1000 := 100000, c0 := 0, c1 := 0, c2 := 0, c3 := 0,
                              parity := overrideParity 100000 0 0 0 0 } }

theorem witness_Arming :
    visited.LineFree ∧ visited.cfg.fault = false ∧ visited.shutdownStands = false ∧
    shut.shutdownStands = true ∧ visited.hoseFaulted 0 = false ∧ visited.laneClosed = false ∧
    visited.closePending = false ∧ visited.visit.state = .opened ∧
    (visited.fill 0).state = .idle ∧ visited.hoses[(0 : Hose)].override = none ∧
    visited.visit.barred = false ∧ visited.visit.origin ≠ some .manual ∧
    visited.hoseSilent 0 = false ∧ visited.logUse < 1024 ∧
    1024 ≤ { writing with nv := { writing.nv with reservations := 1024 } }.logUse ∧
    visited.allowance 0 false = some 3749300 ∧
    { visited with visit := { visited.visit with fuelCap := some 0 } }.allowance 0 true = none ∧
    live.visit.state ≠ .opened := by
  delta State.LineFree; decide +kernel

theorem witness_Arming_prover :
    proving.LineFree ∧ (5 : U32).toNat ≤ 9999999 ∧ proving.cfg.fault = false ∧
    proving.shutdownStands = false ∧ proving.hoseFaulted 0 = false ∧
    proving.laneClosed = false ∧ proving.closePending = false ∧ (proving.fill 0).state = .idle ∧
    proving.hoses[(0 : Hose)].override.isSome = true ∧ proving.hoseSilent 0 = false ∧
    proving.logUse < 1024 ∧
    tankOf (proving.hoseCfg 0).tank = some 0 ∧ proving.views[(0 : Tank)].state ≠ .lowLow ∧
    (proving.modView 0 fun v => { v with state := .lowLow }).views[(0 : Tank)].state =
      .lowLow := by
  delta State.LineFree; decide +kernel

/-- A prover hose at each check that fails: CONFIG_FAULT, SHUTDOWN, HOSE_FAULT, HOME_SILENT,
LOG_FULL, and the edges of the ranges. -/
theorem witness_Arming_proverRefused :
    let s := proving
    let far := s.modPeer 2 fun e => { e with silent := true }
    4 ≤ (4 : Byte).toNat ∧ (3 : Byte).toNat = (3 : Hose).val ∧ (0 : U32).toNat = 0 ∧
    9999999 < (10000000 : U32).toNat ∧
    { s with cfg := { s.cfg with fault := true } }.cfg.fault = true ∧
    { s with shut := { s.shut with latch := true } }.shutdownStands = true ∧
    (s.modHose 0 fun u => { u with faults := { meter := true, valve := false } }).hoseFaulted 0 =
      true ∧
    { s with laneClosed := true }.laneClosed = true ∧ pumping.hoses[(0 : Hose)].override = none ∧
    { far with home := Vector.replicate 8 none, cfg := { far.cfg with
      homeOf := put (Vector.replicate 8 none) 0 (some 2) } }.hoseSilent 0 = true ∧
    1024 ≤ { s with nv := { s.nv with reservations := 1024 } }.logUse := by decide +kernel

/-- A fill of kind FILL of a visit with an account record, at its closing (`SettlingCloses`). -/
theorem witness_SettlingCloses_credit :
    let s := State.fill0 visited { filling .settling with
      net := 1994206, gross := 2000000, settleQuietT := some 1, endCause := some .preset }
    let c := account.credit (s.fill 0).net (s.fill 0).lubeSlot s.visit.hours s.clock
    (s.fill 0).kind = some .fill ∧ s.visit.position = some 5 ∧
    s.accounts.at? 5 = some account ∧ (s.fill 0).settleQuietT.isSome = true ∧
    (after (.settleQuietTimerExpiry 0) s).accounts.at? 5 = some c.1 ∧ c.1.fillCount = 58 := by
  decide +kernel

theorem witness_PauseResumeStop :
    paused.LineFree ∧ (live.fill 0).running = false ∧ (paused.fill 0).state = .held ∧
    (paused.fill 0).holds.operator = true ∧ (paused.fill 0).running = true ∧
    ((after (.resumeHose 0) paused).fill 0).holds.isEmpty = true ∧
    ((after (.resumeHose 0) paused).fill 0).state = .flowing ∧
    ((after (.resumeHose 0) (State.fill0 live { paused.fill 0 with
      holds := { (paused.fill 0).holds with pumpLost := true } })).fill 0).state = .held ∧
    ((timed .armed).fill 0).waits = true ∧ (live.fill 0).state = .idle := by
  delta State.LineFree; decide +kernel

/-- The tag interface with changes. -/
def tagged (f : Tag → Tag) : State := live.modTag fun t => f { t with coil := true }

theorem witness_TagTimersAndBytes :
    let w (s : State) := { s with tag :=
      { live.tag with act := .waitingNoTag, retryT := some 1 } }
    (tagged fun t => { t with act := .powering, fieldT := some 1 }).tag.act = .powering ∧
    (w live).tag.retryT.isSome = true ∧ (w live).mayActivate = true ∧
    (w (hooked true (some true) live)).hoses[(0 : Hose)].hook.debounced = some true ∧
    (w live).hoses[(0 : Hose)].hook.debounced ≠ some true ∧
    (tagged fun t => { t with sending := true, txFifo := [0x30, 2] }).tag.txFifo = [0x30, 2] ∧
    (tagged fun t => { t with act := .resetting, windowT := some 1 }).tag.windowT.isSome = true ∧
    (tagged fun t => { t with rxFifo := List.replicate 39 (0, true) }).tag.rxFifo.length < 40 ∧
    40 ≤ (tagged fun t => { t with rxFifo := List.replicate 40 (0, true) }).tag.rxFifo.length ∧
    (after (.tagByteReceived 7 true) (tagged fun t =>
      { t with act := .resetting, windowT := some 1 })).tag.rxFifo = [(7, true)] := by
  decide +kernel

/-- A list of bytes received with right parity, the answer at its end. -/
def answered (act : TagAct) (l : List Byte) (s : State) : State :=
  s.modTag fun t => { t with
    act := act, coil := true, gapT := some 1, rxFifo := l.map fun b => (b, true),
    header := some { serial := 5, format := 1, blockNumber := 2 } }

/-- A header of serial 5, format 1, block 2, with its CRC-16. -/
def header : List Byte := [0, 0, 0, 5, 1, 2] ++ crc16Bytes [0, 0, 0, 5, 1, 2]

/-- A data block of machine 7 (R55): HAUL, 4,540 L, hours 312,884, serial 5. -/
def block : List Byte :=
  let b : List Byte :=
    [0, 0, 0, 7, 1] ++ beBytes 2 4540 ++ [0, 0, 0, 0, 0, 0] ++ beBytes 4 312884 ++ [1] ++
    [0, 0, 0, 5, 1] ++ List.replicate 9 0
  b ++ crc16Bytes b

theorem witness_TagAnswers :
    let t := tagged fun t => { t with act := .resetting, windowT := some 1, retry := 3 }
    let p := tagged fun t => { t with act := .exchanging, gapT := some 1, rxFifo := [(1, false)] }
    t.tag.windowT.isSome = true ∧ 3 ≤ t.tag.retry ∧ p.tag.gapT.isSome = true ∧
    (∃ b ∈ p.tag.rxFifo, b.2 = false) ∧ p.tag.retry < 3 ∧ p.tag.overrun = false ∧
    (answered .resetting header live).tag.rxFifo = header.map (fun b => (b, true)) ∧
    (∀ b ∈ (answered .exchanging header live).tag.rxFifo, b.2 = true) ∧
    (answered .exchanging header live).tag.rxFifo.length ≠ 34 ∧
    header.length = 8 ∧ crc16 (header.take 6) = u16At header 6 ∧ u8At header 4 = 1 ∧
    (u8At header 5).toNat ≤ 15 ∧
    crc16 ([0, 0, 0, 5, 2, 2] : List Byte) =
      u16At ([0, 0, 0, 5, 2, 2] ++ crc16Bytes [0, 0, 0, 5, 2, 2]) 6 ∧
    block.length = 34 ∧ crc16 (block.take 32) = u16At block 32 ∧ u32At block 18 = 5 ∧
    u8At block 22 = 1 ∧ (u8At block 4).toNat = 1 ∧ u32At block 0 = 7 ∧ u8At block 17 = 1 ∧
    (answered .exchanging block live).visit.state = .none ∧
    (answered .exchanging block live).shownByPeer 7 = false ∧
    live.cfg.fault = false ∧ live.link.dupStation = false := by decide +kernel

/-- An answer as it fails each later test: an overrun, a wrong CRC-16 of header and block, another
serial, and a content fault of header and block. -/
theorem witness_TagAnswers_faults :
    let o := (answered .exchanging block live).modTag fun t => { t with overrun := true }
    let h := [0, 0, 0, 5, 1, 2, 0, 0]
    let d := List.replicate 34 (1 : Byte)
    let b : List Byte :=
      [0, 0, 0, 7, 4] ++ beBytes 2 4540 ++ [0, 0, 0, 0, 0, 0] ++ beBytes 4 312884 ++
      [1, 0, 0, 0, 5, 1] ++ List.replicate 9 0
    let c := b ++ crc16Bytes b
    let x := (answered .exchanging block live).modTag fun t => { t with
      header := some { serial := 6, format := 1, blockNumber := 2 } }
    o.tag.overrun = true ∧ (after .tagAnswerEnd o).tag.lastFault = some .overrun ∧
    h.length = 8 ∧ crc16 (h.take 6) ≠ u16At h 6 ∧
    (after .tagAnswerEnd (answered .resetting h live)).tag.lastFault = some .headerCrc ∧
    d.length = 34 ∧ crc16 (d.take 32) ≠ u16At d 32 ∧
    (after .tagAnswerEnd (answered .exchanging d live)).tag.lastFault = some .blockCrc ∧
    (6 : U32) ≠ u32At block 18 ∧ (after .tagAnswerEnd x).tag.lastFault = some .serial ∧
    c.length = 34 ∧ crc16 (c.take 32) = u16At c 32 ∧ u32At c 18 = 5 ∧ 3 < (u8At c 4).toNat ∧
    (after .tagAnswerEnd (answered .exchanging c live)).tag.lastFault = some .content := by
  decide +kernel

/-- R52, R55, R63, R68: a block of class PRIORITY with lube capacities 0, 300 and 2, the first replaced
by the default of its slot in the visit; the record held for the machine is marked in use. -/
theorem witness_TagAnswers_fields :
    let l : List Byte :=
      [0, 0, 0, 7, 3] ++ beBytes 2 0 ++ [0, 0, 0x01, 0x2C, 0, 2] ++ beBytes 4 312884 ++
      [1, 0, 0, 0, 5, 1] ++ List.replicate 9 0
    let s := { live with accounts := { live.accounts with
      records := [(5, { account with machineId := 7, inUse := false })] } }
    let t := after .tagAnswerEnd (answered .exchanging (l ++ crc16Bytes l) s)
    s.sectionValid .rules = true ∧ t.tag.block.map TagBlock.cls = some .priority ∧
    t.tag.block.map TagBlock.lubeCap = some #v[0, 300, 2] ∧
    t.visit.state = .querying ∧ t.visit.cls = some .priority ∧
    t.visit.fuelCap = some s.cfg.data.rules.fuelDefault[2].toNat ∧
    t.visit.lubeCap = some #v[s.cfg.data.rules.lubeDefault[0].toNat, 300, 2] ∧
    s.accounts.find 7 = some (5, { account with machineId := 7, inUse := false }) ∧
    t.visit.position = some 5 ∧
    t.accounts.records = [(5, { account with machineId := 7, inUse := true })] ∧
    live.accounts.find 7 = none := by decide +kernel

/-- A manual visit, of the tag's machine and of another. -/
theorem witness_TagAnswers_manual :
    let s (m : U32) := answered .exchanging block { visited with
      visit := { visited.visit with origin := some .manual, machineId := some m, tagId := none,
                                    cls := none, fuelCap := none, lubeCap := none } }
    (s 7).visit.state = .opened ∧ (s 7).visit.tagId = none ∧
    (s 7).visit.machineId = some 7 ∧ (s 8).visit.machineId ≠ some 7 ∧
    (s 7).visit.position = some 5 ∧ (s 7).accounts.at? 5 = some account ∧
    (after .tagAnswerEnd (s 7)).visit.origin = some .tag ∧
    (after .tagAnswerEnd (s 7)).visit.fuelCap = some 4540 ∧
    (after .tagAnswerEnd (s 8)).visit.barred = true := by decide +kernel

/-- The machine of a visit with a tag identity, which a block confirms or changes. -/
theorem witness_TagAnswers_visit :
    let s (m : U32) := answered .exchanging block (State.fill0 { visited with
      visit := { visited.visit with machineId := some m,
                                    tagId := some { serial := 5, machineId := m } } }
      { filling .flowing with
          machine := some { machineId := m, cls := some .haul, hours := none, manual := false } })
    (s 7).visit.state ≠ .none ∧ (s 7).visit.tagId.isSome = true ∧
    (s 7).visit.machineId = some 7 ∧ (s 8).visit.machineId ≠ some 7 ∧
    (s 8).tagGoverns 0 = true ∧ ((s 8).fill 0).running = true ∧
    (after .tagAnswerEnd (s 7)).tag.act = .ready ∧
    ((after .tagAnswerEnd (s 8)).fill 0).state = .settling := by decide +kernel

/-- R25, R33, R34, R40, R58: the reports reach the fill that the tag governs in its other states:
CONFIRMED in HELD with TAG_LOST alone, with OPERATOR beside it, and in STARTING, with lower hours in the
block; CHANGED in STARTING, SETTLING and ARMED. -/
theorem witness_TagAnswers_governed :
    let s (m : U32) (f : Fill) := answered .exchanging block (State.fill0
      { visited with
        nv := { visited.nv with reservations := 1 },
        visit := { visited.visit with
          machineId := some m, hours := some 400000,
          tagId := some { serial := 5, machineId := m } } } f)
    let t (m : U32) (f : Fill) := after .tagAnswerEnd (s m f)
    let lost := { filling .held with
      holds := { HoldSet.empty with tagLost := true }, tagLossT := some 5, holdT := some 9 }
    let both := { lost with holds := { lost.holds with operator := true } }
    let waiting := { filling .starting with holds := { HoldSet.empty with tagLost := true } }
    (s 7 lost).tagGoverns 0 = true ∧ ((s 7 lost).fill 0).state = .held ∧
    ((t 7 lost).fill 0).state = .flowing ∧ ((t 7 lost).fill 0).tagLossT = none ∧
    ((t 7 lost).fill 0).holdT = none ∧ (t 7 lost).tag.hoursNotAdopted = 1 ∧
    (t 7 lost).visit.hours = some 400000 ∧
    ((t 7 both).fill 0) = { both with holds := { HoldSet.empty with operator := true },
                                      tagLossT := none } ∧
    ((t 7 waiting).fill 0).holds.isEmpty = true ∧
    (s 8 waiting).tagGoverns 0 = true ∧ ((s 8 waiting).fill 0).state = .starting ∧
    ((t 8 waiting).fill 0).lastOutcome = some (.ended .tagChanged) ∧
    (t 8 waiting).nv.reservations = 0 ∧
    ((t 8 { filling .settling with valveCmd := 500, endCause := some .preset }).fill 0) =
      { filling .settling with
        valveCmd := 0, rampTarget := 0, endCause := some .preset, settleQuietT := some 2000 } ∧
    ((t 8 (filling .armed)).fill 0).state = .armed := by decide +kernel

theorem witness_TagPresenceAndReset :
    let s (act : TagAct) (n : Nat) := tagged fun t =>
      { t with act := act, sampleT := some 1, absentRun := n, presentRun := n,
               absenceSeen := true }
    (s .ready 1).tag.sampleT.isSome = true ∧ (s .ready 1).tag.absentRun < 2 ∧
    2 ≤ (s .ready 2).tag.absentRun ∧ (s .ready 2).tagGoverns 0 = false ∧
    (s .lost 0).tag.presentRun = 0 ∧ 1 ≤ (s .lost 1).tag.presentRun ∧
    (s .waitingFaulted 1).tag.absenceSeen = true ∧ live.tag.absenceSeen = false ∧
    (s .ready 0).LineFree ∧ live.mayActivate = true ∧
    (hooked true (some true) live).hoses[(0 : Hose)].hook.debounced = some true := by
  delta State.LineFree; decide +kernel

/-- R57, R59, R60: RESET_TAG_INTERFACE in READY holds the running fill that the tag governs. -/
theorem witness_TagPresenceAndReset_held :
    let s := (State.fill0 visited { filling .flowing with
        machine := some { machineId := 7, cls := some .haul, hours := none, manual := false } })
    let s := { s with
      tag := { s.tag with act := .ready, coil := true },
      visit := { s.visit with tagId := some { serial := 5, machineId := 7 } } }
    let t := after .resetTagInterface s
    s.LineFree ∧ s.tag.act = .ready ∧ s.tagGoverns 0 = true ∧ (s.fill 0).running = true ∧
    (s.fill 0).holds.tagLost = false ∧ (t.fill 0).state = .held ∧
    (t.fill 0).holds.tagLost = true ∧ (t.fill 0).tagLossT = some 20000 ∧
    t.tag.lastReport = some .lost ∧ t.hoses[(1 : Hose)] = s.hoses[(1 : Hose)] := by
  delta State.LineFree; decide +kernel

/-- R68, R71: a record held is marked in use as QUERYING is entered; at the end of the window a manual
visit takes its class and capacities, and a tag visit gives it its own. -/
theorem witness_VisitOpens_held :
    let held := { account with machineId := 7, inUse := false, cls := .priority, fuelCap := 100 }
    let s := { live with accounts := { live.accounts with records := [(5, held)] } }
    let v (o : VisitOrigin) := { s with visit := { visited.visit with
      state := .querying, queryT := some 1, origin := some o } }
    let t (o : VisitOrigin) := after .queryTimerExpiry (v o)
    s.accounts.find 7 = some (5, held) ∧
    (after (.openManualVisit 7 0xFFFFFFFF) s).accounts.records =
      [(5, { held with inUse := true })] ∧
    (v .manual).visit.origin ≠ some .tag ∧ (v .manual).accounts.wf = true ∧
    (t .manual).visit.cls = some .priority ∧ (t .manual).visit.fuelCap = some 100 ∧
    (t .manual).accounts.records = [(5, { held with inUse := true, lastUsed := 5000 })] ∧
    (t .tag).visit.cls = some .haul ∧
    (t .tag).accounts.records = [(5, { held with
      cls := .haul, fuelCap := 4540, inUse := true, lastUsed := 5000 })] := by decide +kernel

theorem witness_VisitOpens :
    let v := { live with visit := { visited.visit with state := .querying, queryT := some 1,
                                                       machineId := some 9, position := none } }
    live.LineFree ∧
    firstFailure [((0 : U32) != 0, Reason.range), (true, .configFault)] = some .range ∧
    (9 : U32) ≠ 0 ∧ live.cfg.fault = false ∧ live.link.dupStation = false ∧
    live.laneClosed = false ∧ live.closePending = false ∧ live.visit.state = .none ∧
    live.shownByPeer 9 = false ∧ (∀ e ∈ live.accounts.records, e.2.machineId ≠ 9) ∧
    v.visit.state = .querying ∧ v.visit.queryT.isSome = true ∧ v.visit.machineId = some 9 ∧
    v.accounts.wf = true ∧ v.accounts.find 9 = none ∧ v.accounts.records.length < 96 := by
  delta State.LineFree; decide +kernel

theorem witness_VisitEnds :
    visited.LineFree ∧ live.visit.state = .none ∧
    { visited.visit with state := .ending }.state = .ending ∧ visited.visit.state = .opened ∧
    visited.visit.idleT.isSome = true ∧ ((timed .armed).fill 0).kind = some .fill ∧
    ((timed .armed).fill 0).waits = true := by
  delta State.LineFree; decide +kernel

/-- A frame in the receive queue. -/
def received (f : RxFrame) (s : State) : State := s.modLink fun l => { l with rxQueue := [f] }

/-- Section 4.12's summary, as station 3 sends it. -/
def summary (count : Nat) : RxFrame :=
  { ident := 0x42
    payload := SummaryFields.payload
      { seq := 8812, machineId := 0x00042A17, lubeSlot := none, net := 1994206, hours := 312891,
        dhUsed := 243, rate := some 127392, fillCount := count } }

/-- Section 4.12 at peer 7: the summary is applied. -/
theorem test_summary :
    (after .fillSummaryTaken (received (summary 58) accounted)).accounts.records =
      [(5, { account with fillCount := 58, totalFuel := 98406536, hoursAccounted := 15063,
                          rate := some 127392, lastHours := some 312891, stale := false,
                          source := .summary, lastUsed := 5000 })] := by decide +kernel

theorem witness_AccountFrames :
    let s := received (summary 58) accounted
    let q := received { ident := 0x52, payload := beBytes 4 0x00042A17 } accounted
    let r (n : Nat) := received { ident := 0x62
                                  payload := Account.part1 { account with fillCount := n } }
      { accounted with visit := { visited.visit with
          state := .querying, machineId := some 0x00042A17 } }
    s.link.rxQueue = [summary 58] ∧ (summary 58).kind = 4 ∧ s.ownNumber ≠ some 2 ∧
    (summary 58).station = 2 ∧ (summaryOf (summary 58).payload).seq.toNat = 8812 ∧
    s.accounts.lastSummary[(2 : Station)].toNat < 8812 ∧
    s.accounts.find 0x00042A17 = some (5, account) ∧
    (summaryOf (summary 57).payload).fillCount ≤ account.fillCount ∧
    account.fillCount < (summaryOf (summary 58).payload).fillCount ∧
    live.accounts.find 0x00042A17 = none ∧ lowestFree 0 live.accounts.records < 96 ∧
    (q.link.rxQueue.map RxFrame.kind) = [5] ∧ ((r 58).link.rxQueue.map RxFrame.kind) = [6] ∧
    (r 58).visit.state = .querying ∧
    (r 58).link.rxQueue.map (fun f => (u8At f.payload 0, f.payload.length,
      (u16At f.payload 22).toNat)) = [(1, 32, 58)] ∧
    live.visit.state ≠ .querying := by decide +kernel

/-- A full account table: position 5 in use, positions 3 and 7 used longest ago of the others. -/
def crowded : List (Nat × Account) :=
  (List.range 96).map fun i =>
    (i, { account with machineId := BitVec.ofNat 32 (100 + i), inUse := i == 5,
                       lastUsed := if i = 5 then 0 else if i = 3 ∨ i = 7 then 1 else 2 })

/-- R69, R75: a reply for a machine without a record creates it, in position 0 of an empty table, and in
a full one in the place of the lowest of those used longest ago and not in use. -/
theorem witness_AccountFrames_created :
    let r (l : List (Nat × Account)) := received { ident := 0x62, payload := account.part1 }
      { live with
        accounts := { live.accounts with records := l }
        visit := { visited.visit with
          state := .querying, machineId := some 0x00042A17, position := none } }
    let t (l : List (Nat × Account)) := after .accountReplyTaken (r l)
    (∀ l ∈ [[], crowded], (r l).accounts.wf = true ∧
      (r l).accounts.find 0x00042A17 = none ∧ (r l).visit.state = .querying ∧
      (r l).visit.machineId = some 0x00042A17) ∧
    lookupAt 0 (r []).accounts.records = none ∧
    (∀ q, q < 96 → lookupAt q crowded ≠ none) ∧
    (∀ e ∈ crowded, e.2.inUse = false → 1 < e.2.lastUsed.toNat ∨ 1 = e.2.lastUsed ∧ 3 ≤ e.1) ∧
    ((lookupAt 3 crowded).map Account.lastUsed) = some 1 ∧
    (t []).visit.position = some 0 ∧ (t []).accounts.evictions = 0 ∧
    (t crowded).visit.position = some 3 ∧ (t crowded).accounts.evictions = 1 ∧
    (t crowded).accounts.records.length = 96 ∧
    (t crowded).visit.note = some { station := 2, fillCount := 57, stale := true } := by
  decide +kernel

/-- A part 2 in the window, of the answer noted and of another station or fill count. -/
theorem witness_AccountFrames_part2 :
    let f (p : Byte) (n : Nat) : RxFrame :=
      { ident := 0x60 + p, payload := Account.part2 { account with fillCount := n } }
    let s (x : RxFrame) := received x { accounted with visit := { visited.visit with
      state := .querying, machineId := some 0x00042A17,
      note := some { station := 2, fillCount := 57, stale := false } } }
    (f 2 57).kind = 6 ∧ (f 2 57).station = 2 ∧ (f 3 57).station ≠ 2 ∧
    (s (f 2 57)).ownNumber ≠ some (f 2 57).station ∧
    u32At (f 2 57).payload 1 = 0x00042A17 ∧ u8At (f 2 57).payload 0 = 2 ∧
    (f 2 57).payload.length = 25 ∧ (u16At (f 2 57).payload 5).toNat = 57 ∧
    (u16At (f 2 58).payload 5).toNat ≠ 57 ∧
    ((after .accountReplyTaken (s (f 2 57))).accounts.at? 5).map Account.stale = some false ∧
    ((after .accountReplyTaken (s (f 2 57))).accounts.at? 5).map Account.lastUsed = some 5000 ∧
    (after .accountReplyTaken (s (f 2 58))).accounts = accounted.accounts := by decide +kernel

/-- Every clause's operands: hours absent, first hours, hours not advanced, a gap, one beyond the
edge of a gap and its edge. -/
theorem witness_Crediting :
    let a := { account with lastHours := none }
    (a.credit 5 none (some 9) 0).1.lastHours = some 9 ∧
    (account.credit 5 none (some 312648) 0).2.notAdvanced = true ∧
    (account.credit 5 none (some 314649) 0).2.gap = true ∧
    (account.credit 5 none (some 314648) 0).2.credit.dhUsed = 2000 ∧
    (account.credit 5 none none 0).1.rate = account.rate := by decide +kernel

/-- Section 4.13's cases: the account after the credit, hours and stock as given. -/
def allowed (s : State) (hours : Option Nat) (stock : Nat) (state : StockState)
    (cls : MachineClass) (o : Bool) : Option Nat :=
  let tank := { TankCfg.shipped with capacity := 90000, reserve := 20000, lowLow := 5000 }
  let data := { s.cfg.data with tanks := put s.cfg.data.tanks 0 tank }
  ({ s with
    cfg := { s.cfg with data := data },
    visit := { s.visit with hours := hours, cls := some cls },
    accounts := { s.accounts with records :=
      [(5, { account with rate := some 127392, lastHours := some 312891 })] } }.modView 0 fun v =>
    { v with state := state, stock := some { litres := stock, ml := 0 } }).allowance 0 o

theorem test_allowance :
    allowed visited (some 313091) 48200 .normal .haul false = some 2852624 ∧
    allowed visited (some 313091) 22400 .normal .haul false = some 2400000 ∧
    allowed visited (some 312891) 48200 .normal .haul false = some 100000 ∧
    allowed visited none 48200 .normal .haul false = some 100000 ∧
    allowed visited (some 330000) 48200 .normal .haul false = some 4540000 ∧
    allowed visited (some 313091) 19800 .reserve .haul false = none ∧
    allowed visited (some 313091) 19800 .reserve .priority false = some 4540000 ∧
    allowed visited (some 313091) 4900 .lowLow .priority false = none ∧
    allowed visited (some 313091) 48200 .normal .haul true = some 4540000 := by decide +kernel

theorem witness_AllowanceRows :
    let lube := { visited with cfg := { visited.cfg with data := { visited.cfg.data with
      products := put visited.cfg.data.products 0 { kind := 2, alpha := 700 } } } }
    tankOf (visited.hoseCfg 0).tank = some 0 ∧ live.views[(0 : Tank)].stock = none ∧
    visited.views[(0 : Tank)].stock = some { litres := 48200, ml := 0 } ∧
    visited.views[(0 : Tank)].state ≠ .lowLow ∧ visited.visit.fuelCap = some 4540 ∧
    visited.isLube (visited.hoseCfg 0).product = false ∧ visited.visit.position = some 5 ∧
    visited.accounts.at? 5 = some account ∧ account.rate = some 142500 ∧
    account.lastHours = some 312648 ∧ visited.visit.hours = some 312884 ∧ 312648 < 312884 ∧
    visited.visit.cls ≠ some .priority ∧
    lube.isLube (lube.hoseCfg 0).product = true ∧
    lubeSlotOf (lube.hoseCfg 0).lubeSlot = some 0 ∧
    lube.visit.lubeCap = some #v[0, 0, 0] := by decide +kernel

theorem witness_StrapVolume :
    strap.Pairwise (fun a b => a.1 < b.1 ∧ a.2 ≤ b.2) ∧ strap.head? = some (0, 120) ∧ 0 ≤ 0 ∧
    strap.getLast? = some (3600, 86300) ∧ 3600 ≤ 3600 ∧ strap[3]? = some (2000, 46100) ∧
    strap[3 + 1]? = some (3000, 71900) ∧ 2000 ≤ 2000 ∧ 2000 < 3000 := by decide +kernel

/-- Tank 1 of section 5.3, its home unit changed. -/
def gauging (f : HomeUnit → HomeUnit) : State :=
  let tank :=
    { TankCfg.shipped with
      capacity := 90000, reserve := 20000, lowLow := 5000, strapCount := 6,
      lossThreshold := 100, lossProportion := 5,
      strap := Vector.ofFn fun i =>
        match strap[i.val]? with
        | none => (0, 0)
        | some p => (BitVec.ofNat 16 p.1, BitVec.ofNat 32 p.2) }
  { live with
    cfg := { live.cfg with data := { live.cfg.data with
      tanks := put live.cfg.data.tanks 0 tank } } }
    |> fun s => s.modHome 0 fun u => f { u with cfg := tank }

/-- The home unit of tank 1 of a state. -/
def homeUnit (s : State) : HomeUnit := s.home[(0 : Tank)].getD HomeUnit.reset

/-- A home unit with a gauged value in a stock state. -/
def gauged (g : Nat) (st : StockState) (r : ReconState) (u : HomeUnit) : HomeUnit :=
  { u with gauged := some { litres := g, ml := 0, degraded := false }, stockState := st, recon := r,
           book := some { litres := g, ml := 0 }, level := some 2347, gross := some 55052,
           sampleT := some 1, evalT := some 1, gaugeT := some 1 }

/-- Section 5.3's sample. -/
theorem test_probeSample :
    let t := after (.probeSample 0 (.value 2347) (.value 284)) (gauging fun u => u)
    (homeUnit t).gross = some 55052 ∧
    (homeUnit t).gauged = some { litres := 54439, ml := 0, degraded := false } ∧
    (homeUnit t).stockState = .normal ∧ t.views[(0 : Tank)].stock =
      some { litres := 54439, ml := 0 } := by decide +kernel

theorem witness_ProbeSamples :
    let s (f : HomeUnit → HomeUnit) := gauging f
    let a := s (gauged 20000 .reserve .balanced)
    a.home[(0 : Tank)] = some (homeUnit a) ∧ (homeUnit a).sampleT.isSome = true ∧
    a.sectionValid .tanks = true ∧ (0 : Int) ≤ 20000 ∧
    strapUsable (a.tankCfg 0).points = true ∧ (homeUnit a).fault = false ∧
    (homeUnit a).gauged.isSome = true ∧ (homeUnit a).stockState = .reserve ∧
    (homeUnit (s (gauged 5000 .lowLow .watch))).stockState = .lowLow ∧
    (homeUnit (s id)).gauged = none ∧ (homeUnit (s id)).recon = .suspended ∧
    (homeUnit (s fun u => { gauged 5001 .reserve .watch u with invalidRun := 1 })).invalidRun <
      2 ∧
    2 ≤ (homeUnit (s fun u => { gauged 5001 .reserve .watch u with invalidRun := 2 })).invalidRun ∧
    (homeUnit (s (gauged 5001 .reserve .watch))).recon = .watch ∧
    (homeUnit (s (gauged 5001 .reserve .lossAlarm))).recon = .lossAlarm ∧
    strapUsable [(5, 1), (5, 2)] = false := by decide +kernel

/-- The pump of a home tank at a sample that enters LOW_LOW, leaves it, and in another lockout. -/
theorem witness_ProbeSamples_pump :
    let s (r : Option LockReason) (g : Nat) (st : StockState) :=
      (gauging (gauged g st .balanced)).modPump 0 fun p => { p with
        state := if r.isSome then .lockedOut else .stopped, reason := r }
    let p (s : State) := s.pumps[(0 : Tank)].getD Pump.reset
    let low := Instr.probeSample 0 (.value 200) (.value 150)
    let high := Instr.probeSample 0 (.value 2347) (.value 284)
    (p (s none 20000 .normal)).state ≠ .lockedOut ∧
    (p (s (some .dryRun) 3000 .lowLow)).reason = some .dryRun ∧
    (p (s (some .pressureLost) 3000 .lowLow)).reason ≠ some .dryRun ∧
    (homeUnit (after low (s none 20000 .normal))).stockState = .lowLow ∧
    (p (after low (s none 20000 .normal))).reason = some .dryRun ∧
    (homeUnit (after high (s (some .dryRun) 3000 .lowLow))).stockState ≠ .lowLow ∧
    (p (after high (s (some .dryRun) 3000 .lowLow))).state = .resting ∧
    (p (after high (s (some .pressureLost) 3000 .lowLow))).state = .lockedOut ∧
    (homeUnit (after low (s (some .dryRun) 3000 .lowLow))).stockState = .lowLow := by
  decide +kernel

/-- A reading that is no value gives no temperature and no level. -/
theorem witness_ProbeSamples_invalid :
    (∀ v : Int, Reading.openLine = .value v → v < 0 ∨ 20000 < v) ∧
    (∀ v : Int, Reading.value 20001 = .value v → v < 0 ∨ 20000 < v) ∧
    (∀ d : Int, Reading.value 801 = .value d → d < -400 ∨ 800 < d) ∧
    ∃ d : Int, Reading.value 800 = .value d ∧ -400 ≤ d ∧ d ≤ 800 :=
  ⟨fun v h => by (cases h), fun v h => by (cases h; decide), fun v h => by (cases h; decide),
   800, rfl, by decide⟩

/-- A GAUGE frame of station 1 for tank 1, and a PUMP frame. -/
def gaugeFrame (station : Byte) (g : GaugeFields) : RxFrame :=
  { ident := 0x30 + station, payload := g.payload 0 3 }

theorem witness_GaugeAndPumpFrames :
    let a := gauging (gauged 54439 .normal .balanced)
    let none := { a with cfg := { a.cfg with valid := Vector.replicate 5 false } }
    let far (p : Station) (f : RxFrame) := received f { pumping with
      home := Vector.replicate 8 .none, cfg := { live.cfg with
        homeOf := put (Vector.replicate 8 .none) 0 (some p) } }
    let f := gaugeFrame 2 (homeUnit a).gaugeFields
    let q := { ident := 0x22, payload := [1, 5, 1] : RxFrame }
    (homeUnit a).gaugeT.isSome = true ∧ a.home[(0 : Tank)].isSome = true ∧
    a.sectionValid .tanks = true ∧ none.sectionValid .tanks = false ∧
    f.kind = 3 ∧ f.station = 2 ∧ (far 2 f).ownNumber ≠ some 2 ∧
    tankOf (u8At f.payload 0) = some 0 ∧ tankOf 0 = .none ∧ tankOf 9 = .none ∧
    (far 2 f).cfg.homeOf[(0 : Tank)] = some 2 ∧ (far 3 f).cfg.homeOf[(0 : Tank)] ≠ some 2 ∧
    (u8At f.payload 9).getLsbD 4 = false ∧ (0x10 : Byte).getLsbD 4 = true ∧
    (after .gaugeFrameTaken (far 2 f)).views[(0 : Tank)].stock =
      some { litres := 54439, ml := 0 } ∧
    RxFrame.kind { q with payload := [0, 5, 1] } = 2 ∧ u8At [0, 5, 1] 0 = 0 ∧
    q.kind = 2 ∧ q.station = 2 ∧ tankOf (u8At q.payload 0) = some 0 ∧
    pumpStateOf (u8At q.payload 1) ≠ .running ∧
    (far 2 q).views[(0 : Tank)].pump.isRunning = true ∧
    ((far 2 q).modFill 0 fun _ => filling .slowing).fill 0 = filling .slowing := by
  decide +kernel

/-- R113, R114: frames of another station for a tank homed here leave its pump view; a GAUGE frame in
LOCKED_OUT keeps the reason that the view of a tank elsewhere holds. -/
theorem witness_GaugeAndPumpFrames_homed :
    let f := gaugeFrame 2 (homeUnit (gauging (gauged 54439 .normal .balanced))).gaugeFields
    let here (f : RxFrame) := received f { pumping with
      cfg := { live.cfg with homeOf := put (Vector.replicate 8 none) 0 (some 2) } }
    let there (f : RxFrame) := received f { pumping with
      home := Vector.replicate 8 none,
      cfg := { live.cfg with homeOf := put (Vector.replicate 8 none) 0 (some 2) } }
    let q := { ident := 0x22, payload := [1, 1, 0] : RxFrame }
    let lock := { f with payload := f.payload.take 10 ++ [6] }
    let held := (there lock).modView 0 fun v =>
      { v with pump := .known .resting (some .dryRun) }
    (here f).cfg.homeOf[(0 : Tank)] = some f.station ∧ (here f).home[(0 : Tank)] ≠ none ∧
    (here f).ownNumber ≠ some f.station ∧ q.kind = 2 ∧
    (after .gaugeFrameTaken (here f)).views[(0 : Tank)].pump = .known .running none ∧
    (after .pumpFrameTaken (here q)).views[(0 : Tank)].foreign = 1 ∧
    (after .pumpFrameTaken (there q)).views[(0 : Tank)].pump = .known .stopped none ∧
    pumpStateOf (u8At lock.payload 10) = .lockedOut ∧
    held.views[(0 : Tank)].pump = .known .resting (some .dryRun) ∧ held.home[(0 : Tank)] = none ∧
    (after .gaugeFrameTaken held).views[(0 : Tank)].pump = .known .lockedOut (some .dryRun) := by
  decide +kernel

/-- A home unit with a variance of −500 L, its loss run 2. -/
def losing (r : ReconState) (n : Nat) : State :=
  gauging fun u => { gauged 40000 .normal r u with
    book := some { litres := 40500, ml := 0 }, lossRun := n }

theorem witness_Reconciliation :
    let x := homeUnit (losing .watch 2)
    x.evalT.isSome = true ∧ (losing .watch 2).sectionValid .tanks = true ∧
    x.gauged = some { litres := 40000, ml := 0, degraded := false } ∧
    x.book = some { litres := 40500, ml := 0 } ∧
    (x.cfg.lossThreshold.toNat +
      x.cfg.lossProportion.toNat * x.throughput.toNat / 1000 : Nat) = 100 ∧
    ((40000 : Int) - 40500 < -100) ∧ x.recon = .watch ∧ 2 ≤ x.lossRun ∧
    (homeUnit (losing .watch 1)).lossRun < 2 ∧
    (homeUnit (losing .balanced 0)).recon = .balanced ∧
    (homeUnit (losing .receiving 0)).recon = .receiving ∧
    (homeUnit (losing .lossAlarm 0)).recon = .lossAlarm ∧
    (homeUnit (after (.reconciliationEvaluation 0) (losing .watch 2))).recon = .lossAlarm ∧
    (after (.reconciliationEvaluation 0) (losing .watch 2)).holdsBay = true := by decide +kernel

/-- A receipt that is open. -/
def receipt : Receipt :=
  { startGauged := 20000, startDegraded := false, startOverStrap := false,
    startTempDefault := false, startLevel := 900, startTime := 1, draws := 1500 }

theorem witness_Receipts :
    let a := gauging (gauged 54439 .normal .balanced)
    let r := gauging fun u => { gauged 54439 .normal .receiving u with receipt := some receipt }
    a.LineFree ∧ tankOf 1 = some 0 ∧ a.cfg.fault = false ∧
    { a.cfg with fault := true }.fault = true ∧ a.home[(1 : Tank)] = none ∧
    a.home[(0 : Tank)].isSome = true ∧ (homeUnit a).recon = .balanced ∧
    (homeUnit a).receipt = none ∧ a.logUse < 1024 ∧
    1024 ≤ { a with nv := { a.nv with reservations := 1024 } }.logUse ∧
    (0 : Byte).toNat = 0 ∧ 8 < (9 : Byte).toNat ∧ (8 : Byte).toNat = (7 : Tank).val + 1 ∧
    (homeUnit r).recon ≠ .balanced ∧ (homeUnit r).recon ≠ .watch ∧
    (homeUnit r).receipt = some receipt ∧ r.nv.queue.length < 12 := by
  delta State.LineFree; decide +kernel

theorem witness_Draws :
    let v (s : State) := s.modView 0 fun v =>
      { v with lastTotals := put v.lastTotals 2 (some 1205489380),
               stock := some { litres := 48200, ml := 900 } }
    let a := v (gauging (gauged 48200 .normal .balanced))
    live.views[(0 : Tank)].lastTotals[(2 : Station)] = none ∧
    a.views[(0 : Tank)].lastTotals[(2 : Station)] = some 1205489380 ∧
    (1205467910 - 1205489380 : U32).toInt = -21470 ∧
    (1205510100 - 1205489380 : U32).toInt = 20720 ∧
    (v { live with home := Vector.replicate 8 none }).home[(0 : Tank)] = none ∧
    (v live).views[(0 : Tank)].stock = some { litres := 48200, ml := 900 } ∧
    (900 + 20720) / 1000 ≤ 48200 ∧ (homeUnit a).book = some { litres := 48200, ml := 0 } ∧
    (homeUnit a).fault = false ∧
    (homeUnit (a.takeTotal 2 0 1205510100 false)).book =
      some { litres := 48180, ml := 720 } := by decide +kernel

/-- R89, R95: a draw from a degraded value, above and down to the low-low volume of 5,000 L, and from
the view of a tank homed here. -/
theorem witness_Draws_degraded :
    let s (l : Nat) := (gauging fun u => { gauged l .gaugeFault .suspended u with
        fault := true, gauged := some { litres := l, ml := 400, degraded := true } }).modView 0
      fun v => { v with lastTotals := put v.lastTotals 2 (some 1000), state := .normal,
                        stock := some { litres := l, ml := 400 } }
    let t (l d : Nat) := (s l).takeTotal 2 0 (BitVec.ofNat 32 (1000 + d)) false
    (s 20050).views[(0 : Tank)].lastTotals[(2 : Station)] = some 1000 ∧
    (homeUnit (s 20050)).fault = true ∧ (s 20050).sectionValid .tanks = true ∧
    (homeUnit (s 20050)).cfg.lowLowUsed = 5000 ∧ (homeUnit (s 20050)).cfg.reserveUsed = 20000 ∧
    (homeUnit (t 20050 100700)).gauged = some { litres := 19949, ml := 100, degraded := true } ∧
    (homeUnit (t 20050 100700)).stockState = .gaugeFault ∧
    (t 20050 100700).views[(0 : Tank)].stock = some { litres := 19949, ml := 100 } ∧
    (t 20050 100700).views[(0 : Tank)].state = .reserve ∧
    (homeUnit (t 5010 10600)).gauged = some { litres := 4999, ml := 0, degraded := true } ∧
    (homeUnit (t 5010 10600)).stockState = .lowLow ∧
    (t 5010 10600).views[(0 : Tank)].stock = some { litres := 4999, ml := 0 } ∧
    (t 5010 10600).flagSet .stock = true ∧
    ((t 5010 10600).pumps[(0 : Tank)].map Pump.reason) = some (some .dryRun) ∧
    (homeUnit (t 5 6000)).gauged = some { litres := 0, ml := 0, degraded := true } := by
  decide +kernel

/-- Tank 1's pump controller. -/
def pump (f : Pump → Pump) : State := live.modPump 0 f

/-- Station 3 in the demand set. -/
def demanded (p : Pump) : Pump := { p with remote := put p.remote 2 (some 1200) }

theorem witness_PumpController :
    let s := pump fun p => { p with
      state := .starting, startT := some 1, lossT := some 1, runOnT := some 1, restT := some 1 }
    let q := (pump demanded).pumps[(0 : Tank)].getD Pump.reset
    s.pumps[(0 : Tank)].isSome = true ∧
    (s.pumps[(0 : Tank)].all fun p => p.startT.isSome && p.lossT.isSome && p.runOnT.isSome &&
      p.restT.isSome && p.state == .starting) = true ∧
    Pump.reset.Deserted ∧ ¬ q.Deserted ∧ q.remote[(2 : Station)].isSome = true ∧
    Pump.Deserted { q with remote := put q.remote 2 none } ∧
    live.holdsBay = false ∧ live.link.dupStation = false ∧ live.homeLow 0 = false ∧
    live.pressure[(0 : Tank)] = false ∧
    { live with pressure := put live.pressure 0 true }.pressure[(0 : Tank)] = true ∧
    live.LineFree ∧ (1 : Byte).toNat = (0 : Tank).val + 1 ∧ live.home[(1 : Tank)] = none ∧
    live.home[(0 : Tank)].isSome = true ∧ (homeUnit live).stockState ≠ .lowLow := by
  delta Pump.Deserted State.LineFree; decide +kernel

/-- Each controller state of those clauses holds in some state. -/
theorem witness_PumpController_states (st : PumpState) :
    (pump fun p => { p with state := st }).pumps[(0 : Tank)] =
      some { Pump.reset with state := st } := rfl

theorem witness_BayInputs :
    let x (raw : Bool) : InputUnit :=
      { raw := raw, debounced := false, timer := some 1, sinceReset := false }
    let s (raw : Bool) := live.modShut fun u =>
      { u with estop := x raw, bund := put u.bund 0 (x raw) }
    let o (l : List BayCause) := (s true).modShut fun u => { u with origin := some l }
    (LineReading.openLine = .active ∨ LineReading.openLine = .openLine) ∧
    ((after (.bayInputChange .estop .shorted) live).shut.input .estop).raw = true ∧
    ((after (.bayInputChange .estop .normal) live).shut.input .estop).raw = false ∧
    live.link.txQueue.length < 8 ∧ (∀ x : Tank, { live with
      pumps := Vector.replicate 8 none }.pumps[x] = none) ∧
    ((after (.bayInputDebounceExpiry .estop) (s true)).link.txQueue.map TxEntry.frame).head? =
      some (.spill [.estop]) ∧
    (live.shut.input .estop).raw ≠ true ∧ (live.shut.input .estop).debounced ≠ true ∧
    (live.shut.input (.bund 0)).debounced ≠ true ∧ live.home[(0 : Tank)].isSome = true ∧
    live.home[(1 : Tank)] = none ∧ ((s true).shut.input .estop).timer.isSome = true ∧
    ((s false).shut.input .estop).raw = false ∧ ((s true).shut.input (.bund 0)).raw = true ∧
    (s true).shut.origin = none ∧ (s true).holdsBay = false ∧
    (o [.sump]).shut.origin = some [.sump] ∧ BayCause.estop ∉ [BayCause.sump] ∧
    BayCause.estop ∈ [BayCause.estop] ∧
    (after (.bayInputDebounceExpiry .estop) (o [.sump])).shut.origin =
      some [.sump, .estop] := by decide +kernel

theorem witness_ClearFaults :
    let s (f : HoseFaults) (n : Nat) := State.meter0
      (live.modHose 0 fun u => { u with faults := f }) fun m => { m with mismatchRun := n }
    let l := State.meter0 (live.modShut fun u =>
      { u with latch := true, creepList := put u.creepList 0 true })
    live.LineFree ∧ live.hoses[(0 : Hose)].faults = { meter := false, valve := false } ∧
    (s { meter := true, valve := false } 5).hoses[(0 : Hose)].faults ≠
      { meter := false, valve := false } ∧
    ((s { meter := true, valve := false } 5).meter 0).mismatchRun = 5 ∧
    ((s { meter := true, valve := true } 4).meter 0).mismatchRun ≠ 5 ∧
    (s { meter := true, valve := true } 4).hoses[(0 : Hose)].valve.present = false ∧
    live.shut.latch = false ∧ shut.shut.latch = true ∧
    ((l fun m => { m with creep := some { creep with raised := true } }).meter 0).creep =
      some { creep with raised := true } ∧
    (l id).shut.creepList[(0 : Hose)] = true ∧
    (∀ h : Hose, ((l id).meter h).creep = none) := by
  delta State.LineFree; decide +kernel

theorem witness_BayRestore :
    let o (l : List BayCause) := live.modShut fun u => { u with origin := some l }
    let e := { o [.estop] with shut := { (o [.estop]).shut with
      estop := { live.shut.estop with raw := true, debounced := true } } }
    live.LineFree ∧ live.shut.origin = none ∧ e.shut.origin = some [.estop] ∧
    (∃ c ∈ [BayCause.estop], e.causeActive c = true) ∧
    (∀ c ∈ [BayCause.estop, .stockLoss], (o [.estop, .stockLoss]).causeActive c = false) ∧
    (homeUnit (losing .lossAlarm 0)).recon = .lossAlarm ∧
    (o [.stockLoss]).link.txQueue.length < 8 ∧
    (homeUnit (o [.stockLoss])).recon ≠ .lossAlarm ∧
    (after .requestBayRestore ((o [.stockLoss]).modShut fun u => { u with
      sources := put u.sources 2 (some { clear := 0, causes := none }) })).holdsBay = true ∧
    (after .requestBayRestore (o [.stockLoss])).link.txQueue.head? =
      some { frame := .restore, sending := false } ∧
    (after .requestBayRestore (o [.stockLoss])).holdsBay = false := by
  delta State.LineFree; decide +kernel

theorem witness_SpillAndRestore :
    let f := { ident := 0x02, payload := [1, 0] : RxFrame }
    let r := { ident := 0x12, payload := [] : RxFrame }
    let held := live.modShut fun u => { u with
      sources := put u.sources 2 (some { clear := 0, causes := none }) }
    (received f live).link.rxQueue = [f] ∧ (received f live).link.number ≠ some f.station ∧
    f.kind = 0 ∧ r.kind = 1 ∧ live.holdsBay = false ∧ held.holdsBay = true ∧
    held.shut.sources[r.station].isSome = true ∧ live.shut.sources[r.station] = none ∧
    (after .restoreFrameTaken (received r held)).holdsBay = false := by decide +kernel

/-- Frames waiting: an older beacon, a query and a newer beacon, which entered during the attempt. -/
def waitingFrames (sending : Bool) : State :=
  let b := { beaconOf [] with lane := 1 }
  live.modLink fun l => { l with
    newBeacon := sending
    line := if sending then .sending else .idle
    txQueue := [{ frame := .beacon b, sending := sending },
                { frame := .query 7, sending := false },
                { frame := .beacon b, sending := false }] }

theorem witness_Sending :
    let s := waitingFrames true
    let q := waitingFrames false
    q.ownNumber = some 0 ∧ q.link.withdrawn = false ∧ q.link.dupStation = false ∧
    q.link.line = .idle ∧ q.started = true ∧ State.reset.started = false ∧
    { q.link with line := .wait }.line ≠ .idle ∧ q.link.txQueue ≠ [] ∧ (∀ x ∈ q.link.txQueue, x.sending = false) ∧
    live.link.txQueue = [] ∧ s.link.line = .sending ∧ s.link.retry < 15 ∧
    15 ≤ { s.link with retry := 15 }.retry ∧
    (s.link.txQueue.map TxEntry.sending) = [true, false, false] ∧
    (s.link.txQueue.map fun x => x.frame.kind) = [7, 5, 7] ∧
    s.link.newBeacon = true ∧ (after .arbitrationLost s).link.txQueue.length = 2 ∧
    (after .arbitrationLost (s.modLink fun l => { l with newBeacon := false })).link.txQueue.length
      = 3 ∧
    (s.link.txQueue.find? (fun x => x.sending)).isSome = true ∧
    { s.link with withdrawn := true, withdrawT := some 1 }.withdrawT.isSome = true ∧
    (after .frameSendStart q).link.wire = frameBytes 0 5 [0, 0, 0, 7] := by decide +kernel

/-- R143: a SPILL whose attempt fails with a newer one waiting is replaced by it, so that one waits; with
none waiting it stays. -/
theorem witness_Sending_spill :
    let e (l : List BayCause) (b : Bool) : TxEntry := { frame := .spill l, sending := b }
    let s (q : List TxEntry) := live.modLink fun l => { l with line := .sending, txQueue := q }
    let two := s [e [.sump] true, e [.sump, .estop] false]
    two.queuesOk = true ∧ two.link.line = .sending ∧
    (after .sendError two).link.txQueue = [e [.sump, .estop] false] ∧
    (after .arbitrationLost (s [e [.sump] true])).link.txQueue = [e [.sump] false] := by
  decide +kernel

/-- R144: a SPILL that replaces a waiting one and withdraws a RESTORE of a full queue lets the pending
GAUGE in at once. -/
theorem test_offerSpill_place :
    let s := live.modLink fun l => { l with
      txQueue := [{ frame := .restore, sending := false }, { frame := .spill [.sump], sending := false }] ++
        List.replicate 6 { frame := .query 7, sending := false }, pendGauge := [0] }
    (s.offerSpill [.estop]).link.txQueue.map (fun e => e.frame.kind) =
      [0, 5, 5, 5, 5, 5, 5, 3] ∧ (s.offerSpill [.estop]).link.pendGauge = [] := by decide +kernel

/-- R134, R135: the idle count after a length byte above 32. -/
theorem witness_Receiving_length :
    let t (len : Byte) := after (.receptionEndedLengthError len) live
    (t 33).link.idleCount = 1 ∧ (t 0x7F).link.idleCount = 7 ∧ (t 0xFE).link.idleCount = 0 ∧
    (t 33).link.line = .wait ∧ (t 33).link.counts.formatErrors = 1 ∧ (33 : Byte) ≠ 0xFF := by
  decide +kernel

theorem witness_Receiving :
    let q : List Byte := [0, 0, 0, 7]
    let own := received { ident := 0x50, payload := q } visited
    live.sectionValid .station = true ∧ live.link.line ≠ .sending ∧
    live.link.dropped = false ∧
    (after (.frameReceived 0x52 4 q 0 0xFF) live).link.dropped = true ∧
    crc8 (0x52 :: 4 :: q) ≠ crc8 (0x53 :: 4 :: q) ∧ (0x52 : Byte).toNat < 128 ∧
    128 ≤ (0x82 : Byte).toNat ∧ lengthOk ((0x52 : Byte).toNat / 16) q = true ∧
    lengthOk ((0x52 : Byte).toNat / 16) [0] = false ∧ live.link.rxQueue.length < 16 ∧
    16 ≤ { live.link with rxQueue := List.replicate 16 { ident := 0x52, payload := q } }.rxQueue.length ∧
    (after (.frameReceived 0x52 4 q (crc8 (0x52 :: 4 :: q)) 0xFF) live).link.rxQueue =
      [{ ident := 0x52, payload := q }] ∧
    own.link.rxQueue = [{ ident := 0x50, payload := q }] ∧
    own.ownNumber = some (RxFrame.station { ident := 0x50, payload := q }) ∧
    (Instr.accountQueryTaken, RxFrame.kind { ident := 0x50, payload := q }) ∈
      [(Instr.spillFrameTaken, 0), (.accountQueryTaken, 5)] ∧
    own.link.dupStation = false ∧ own.visit.state = .opened := by decide +kernel

/-- R150, R152: with the STATION section invalid a SPILL left in the queue with the former own number is
another station's (log 85). -/
theorem witness_Receiving_former :
    let f := { ident := 0x00, payload := [1, 0] : RxFrame }
    let s := { received f live with cfg := { live.cfg with valid := Vector.replicate 5 false } }
    s.sectionValid .station = false ∧ s.link.number = some f.station ∧ f.kind = 0 ∧
    (after .spillFrameTaken s).link.dupStation = false ∧
    (after .spillFrameTaken s).shut.sources[f.station].isSome = true := by decide +kernel

/-- R152: a frame that ends in two recessive bits leaves the number that waits, one that ends in ten
takes it up; until then frames are tested against the old number. -/
theorem witness_Receiving_number :
    let s := live.modLink fun l => { l with line := .wait, next := some (some 6, 2) }
    let frame (p crc : Byte) := after (.frameReceived 0x56 4 [0, 0, 0, p] crc 0xFF) s
    s.link.next = some (some 6, 2) ∧ (frame 0 0).link.line = .wait ∧
    (frame 0 0).link.next = some (some 6, 2) ∧ (frame 0 0).ownNumber = some 0 ∧
    (frame 0xFF 0xFF).link.line = .idle ∧ (frame 0xFF 0xFF).link.next = none ∧
    (frame 0xFF 0xFF).ownNumber = some 6 := by decide +kernel

/-- Section 8.8: a beacon that a former holder of the own number left in its entry is no peer's (R63,
R66). -/
theorem test_shownByPeer_own :
    let s := live.modPeer 3 fun e =>
      { e with heard := true, fields := some { beaconOf [] with machineId := 7 } }
    s.shownByPeer 7 = true ∧
    (s.modLink fun l => { l with number := some 3 }).shownByPeer 7 = false := by decide +kernel

/-- A beacon of a station: open, a machine and a demand for tank 1. -/
def beacon (spill : Bool) (epoch : U16) : BeaconFields :=
  { lane := 1, visit := 0, spill := spill, laneShut := false, configFault := false,
    rejoined := true, epoch := epoch, machineId := 7, demand := 1, draws := [] }

theorem witness_BeaconTaken :
    let f (b : BeaconFields) := { ident := 0x72, payload := b.payload true : RxFrame }
    let high := visited.modLink fun l => { l with number := some 8 }
    let s := received (f (beacon true 4)) high
    (f (beacon true 4)).kind = 7 ∧ (f (beacon true 4)).station = 2 ∧ s.ownNumber = some 8 ∧
    beaconOf (f (beacon true 4)).payload = beacon true 4 ∧
    s.link.peers[(2 : Station)].heard = false ∧
    { Peer.reset with heard := true, epoch := some 3 }.epoch ≠ some (beacon true 4).epoch ∧
    s.holdsBay = false ∧ s.pumps[(0 : Tank)] = some Pump.reset ∧
    (beacon true 4).demand.getLsbD (0 : Tank).val = true ∧
    (beacon true 4).demand.getLsbD (1 : Tank).val = false ∧
    s.visit.machineId = some (beacon true 4).machineId ∧ s.visit.state = .opened ∧
    live.visit.machineId ≠ some (beacon true 4).machineId ∧
    (after .beaconTaken s).visit.state = .none ∧
    (after .beaconTaken s).visit.lastOutcome = some .duplicateTag := by decide +kernel

/-- R113, R114: at the beacon of station 3, home to tank 2, the RUNNING pump view of tank 2 stands and
that of tank 1 is its controller's, which the demand finds resting. -/
theorem witness_BeaconTaken_pumpViews :
    let f := { ident := 0x72, payload := (beacon false 4).payload true : RxFrame }
    let s := ((received f live).modView 1 fun v => { v with pump := .known .running none }).modView 0
      fun v => { v with pump := .known .resting none }
    let t := after .beaconTaken s
    s.pumps[(1 : Tank)] = none ∧ t.views[(1 : Tank)].pump = .known .running none ∧
    s.pumps[(0 : Tank)].map (fun q => (q.state, q.reason)) = some (.resting, none) ∧
    (t.pumps[(0 : Tank)].map fun q => (q.remote[(2 : Station)], q.state)) =
      some (some 1200, .resting) ∧
    t.views[(0 : Tank)].pump = .known .resting none := by decide +kernel

/-- R33, R34, R97: station 3, home to tank 1, is heard again: HOME_SILENT leaves the held fill, which
resumes without another hold cause and stays in HELD with PUMP_LOST. -/
theorem witness_BeaconTaken_silent :
    let f := { ident := 0x72, payload := (beacon false 4).payload true : RxFrame }
    let x := (live.modPeer 2 fun e => { e with heard := true, silent := true }).modLink fun l =>
      { l with rxQueue := [f] }
    let s (lost : Bool) := State.fill0 { x with
      home := Vector.replicate 8 none, pumps := Vector.replicate 8 none,
      cfg := { x.cfg with homeOf := put x.cfg.homeOf 0 (some 2) } }
      { filling .held with holds := { HoldSet.empty with homeSilent := true, pumpLost := lost },
                           holdT := some 1 }
    (s false).link.peers[(2 : Station)].silent = true ∧ (s false).ownNumber = some 0 ∧
    (beaconOf f.payload).spill = false ∧ (s false).homeSilent 0 = true ∧
    ((s false).fill 0).tank = some 0 ∧ (s false).home[(0 : Tank)] = none ∧
    (after .beaconTaken (s false)).homeSilent 0 = false ∧
    ((after .beaconTaken (s false)).fill 0).state = .flowing ∧
    ((after .beaconTaken (s true)).fill 0).state = .held ∧
    ((after .beaconTaken (s true)).fill 0).holdT = some 1 := by decide +kernel

theorem witness_SilenceAndBeacons :
    let heard := pumping.modPeer 2 fun e => { e with heard := true, silenceT := some 1 }
    let s := (State.fill0 { heard with
      home := Vector.replicate 8 none, pumps := Vector.replicate 8 none,
      cfg := { live.cfg with homeOf := put (Vector.replicate 8 none) 0 (some 2) } }
      (filling .flowing))
    s.link.peers[(2 : Station)].heard = true ∧ s.link.number ≠ some 2 ∧
    live.link.number = some 0 ∧ { s.link with number := none }.number = none ∧
    live.drawnTanks ≠ [] ∧
    s.link.peers[(2 : Station)].silenceT.isSome = true ∧ s.PumpsHomed ∧ heard.PumpsHomed ∧
    s.cfg.homeOf[(0 : Tank)] = some 2 ∧ s.home[(0 : Tank)] = none ∧
    (s.fill 0).tank = some 0 ∧ (s.fill 0).dispensing = true ∧
    ((after (.silenceTimerExpiry 2) s).fill 0).state = .held ∧
    live.started = true ∧ live.link.beaconT.isSome = true ∧ State.reset.started = false ∧
    { live with phase := .beacon }.phase = .beacon ∧ live.sectionValid .station = true ∧
    live.link.waiting 7 = false ∧ live.link.pendBeacon = none ∧ live.link.hasPlace = true ∧
    { live with cfg := { live.cfg with valid := put live.cfg.valid 1 false } }.drawnTanks = [] := by
  delta State.PumpsHomed; decide +kernel

/-- R141, R143: the draw entries of the beacon, and its place in a full queue. -/
theorem witness_SilenceAndBeacons_draws :
    let c := { live.cfg with data := { live.cfg.data with hoses := #v[
      { HoseCfg.shipped with tank := 2 }, { HoseCfg.shipped with tank := 1 },
      { HoseCfg.shipped with tank := 2 }, { HoseCfg.shipped with tank := 0 }] } }
    let s := State.fill0 { live with cfg := c } { filling .flowing with tank := some 1, net := 1500 }
    let full := s.modLink fun l => { l with
      txQueue := List.replicate 8 { frame := .query 7, sending := false } }
    s.sectionValid .hoses = true ∧ s.beaconFields.draws = [(1, 0), (2, 1500)] ∧
    s.link.unsentBeacons = 0 ∧ s.formBeacon.link.unsentBeacons = 1 ∧
    8 ≤ full.link.txQueue.length ∧ full.formBeacon.link.pendBeacon = some full.beaconFields ∧
    full.formBeacon.link.unsentBeacons = 1 ∧
    full.formBeacon.formBeacon.link.unsentBeacons = 1 := by decide +kernel

/-- R159, R160: a CREEP record with a slot, written at 1,023 and deferred at 1,024, as reservations stand
at its completion. -/
theorem witness_RecordWritten_crowded :
    let r := { record with kind := .creep, net := 10 }
    let s (n : Nat) := State.meter0 { live with
      nv := { live.nv with queue := [.record (.creep 0) r], reservations := n,
                           run := some { slot := some 4, seq := 10, reads := 0 } } }
        fun m => { m with jobCreep := some closedCreep }
    let t (n : Nat) := after .recordWriteComplete (s n)
    (s 1023).unconsumed + (s 1023).nv.reservations < 1024 ∧ (t 1023).unconsumed = 1 ∧
    1024 ≤ (s 1024).unconsumed + (s 1024).nv.reservations ∧ (t 1024).store = (s 1024).store ∧
    (t 1024).nv.reservations = 1024 ∧
    ((t 1024).meter 0).waitCreep = some { closedCreep with deferred := true } := by decide +kernel

theorem witness_RecordWritten :
    let c (o : RecordOwner) (n : Option Nat) := State.meter0 { writing with
      nv := { writing.nv with queue := [.record o record],
                              run := some { slot := n, seq := 10, reads := 0 } } }
        fun m => { m with jobCreep := some closedCreep }
    writing.nv.queue = [.record (.fill 0) record] ∧
    writing.nv.run = some { slot := some 4, seq := 10, reads := 0 } ∧ record.kind ≠ .receipt ∧
    (writing.fill 0).state = .closing ∧ (writing.fill 0).tank = some record.tank ∧
    (writing.fill 0).net = record.net ∧
    writing.nv.totals[record.tank] = writing.store.totals[record.tank].total ∧
    (c (.creep 0) none).nv.queue = [.record (.creep 0) record] ∧
    (c (.creep 0) none).nv.run = some { slot := none, seq := 10, reads := 0 } ∧
    ((c (.creep 0) none).meter 0).jobCreep = some closedCreep ∧
    ((c (.creep 0) none).meter 0).waitCreep = none ∧
    (c .receipt (some 4)).nv.queue = [.record .receipt record] := by decide +kernel

/-- R17: the record of a closed creep takes its net out of the live terms and into the tank word. -/
theorem witness_RecordWritten_creep :
    let r := { record with kind := .creep, net := 10 }
    let s := State.meter0 { live with
      nv := { live.nv with queue := [.record (.creep 0) r],
                           run := some { slot := some 4, seq := 10, reads := 0 } } }
        fun m => { m with jobCreep := some closedCreep }
    s.nv.queue = [.record (.creep 0) r] ∧ (s.meter 0).jobCreep = some closedCreep ∧
    closedCreep.tank = r.tank ∧ closedCreep.net = r.net ∧ r.kind = .creep ∧
    s.nv.totals[r.tank] = s.store.totals[r.tank].total ∧ s.drawTotal 0 = 10 ∧
    (after .recordWriteComplete s).nv.totals[(0 : Tank)] = 10 ∧
    (after .recordWriteComplete s).drawTotal 0 = 10 := by decide +kernel

/-- R157, R166: the INTERRUPTED record of hose 1 written, recovery ends, its hoses done. -/
theorem witness_RecordWritten_interrupted :
    let s := { writing with
      phase := .recovery,
      nv := { writing.nv with queue := [.record (.interrupted 1) record], recovery := .record [2, 3] } }
    let t := after .recordWriteComplete s
    s.nv.queue = [.record (.interrupted 1) record] ∧ s.nv.held = [] ∧ s.store.errs = [] ∧
    s.nv.recovery = .record [2, 3] ∧ t.phase = .beacon ∧ t.nv.unannounced = [3, 4] ∧
    lookupAt 4 t.store.log =
      some { record := { record with seq := 10 }, totalled := true, consumed := false } := by
  decide +kernel

/-- R166: an INTERRUPTED record without a slot: the checkpoint stays and recovery ends its hoses. -/
theorem witness_RecordWritten_noSlot :
    let s := { writing with
      phase := .recovery,
      nv := { writing.nv with
        queue := [.record (.interrupted 1) record], recovery := .record [2, 3],
        run := some { slot := none, seq := 10, reads := 0 } } }
    let t := after .recordWriteComplete s
    s.nv.held = [] ∧ s.store.errs = [] ∧ t.phase = .beacon ∧ t.store = s.store ∧
    t.nv.queue = [] := by decide +kernel

/-- An entry checkpoint of hose 0's fill. -/
def checkpoint : Checkpoint :=
  { seq := 9, tank := 0, product := 0, machine := none, preset := 2000000, net := 0, gross := 0,
    startTime := 5, flags := FillFlags.clear }

theorem witness_CheckpointAndTotals :
    let q (j : Job) := { State.fill0 live (filling .flowing) with
      nv := { live.nv with queue := [j] } }
    let old := { data := checkpoint, complete := true, writes := 4 : CheckpointCopy }
    let b := { live.store with copyB := put live.store.copyB 0 (some old) }
    (q (.checkpoint 0 true checkpoint)).nv.queue = [.checkpoint 0 true checkpoint] ∧
    ((q (.checkpoint 0 true checkpoint)).fill 0).seq = some checkpoint.seq ∧
    ((q (.checkpoint 0 true checkpoint)).fill 0).state ≠ .idle ∧
    b.newerCopy 0 = some (true, old) ∧ live.store.newerCopy 0 = none ∧
    (q (.epochUpdate 1)).nv.queue = [.epochUpdate 1] ∧ live.nv.held = [] ∧
    live.store.errs = [] ∧ (∀ x ∈ writing.store.log, x.2.totalled = true) ∧
    (∀ h, live.store.newerCopy h = none) ∧
    (q (.totalUpdate 0 (some { total := 5, applied := 9 }) (some 3))).nv.queue =
      [.totalUpdate 0 (some { total := 5, applied := 9 }) (some 3)] ∧
    (q (.totalUpdate 0 none (some 3))).nv.queue = [.totalUpdate 0 none (some 3)] := by
  decide +kernel

/-- The epoch update of a recovery in progress, the checkpoint of hose 1 with a sequence, bay inputs
active: the emergency stop and the bund of tank 1 since the reset, the sump not. -/
def recovering (seq : U32) : State :=
  let x : InputUnit := { raw := true, debounced := false, timer := none, sinceReset := true }
  let copy := { data := { checkpoint with seq := seq }, complete := true, writes := 4 }
  { writing with
    phase := .recovery,
    store := { writing.store with copyB := put writing.store.copyB 1 (some copy) },
    nv := { writing.nv with queue := [.epochUpdate 1], run := none, recovery := .epoch },
    shut := { writing.shut with
      estop := x, sump := { x with sinceReset := false }, bund := put live.shut.bund 0 x } }

/-- R166: the log does not hold sequence 12, so its INTERRUPTED record is awaited. -/
theorem witness_CheckpointAndTotals_awaited :
    let s := recovering 12
    let t := after .persistedTotalsUpdateComplete s
    s.nv.queue = [.epochUpdate 1] ∧ s.nv.held = [] ∧ s.store.errs = [] ∧
    (∀ x ∈ s.store.log, x.2.totalled = true) ∧ (s.store.newerCopy 1).isSome = true ∧
    s.store.newerCopy 0 = none ∧ (∀ e ∈ s.store.log, e.2.record.seq ≠ 12) ∧
    t.phase = .recovery ∧ t.nv.recovery = .record [2, 3] ∧
    (t.nv.run.map RecordRun.seq) = some 12 ∧ (t.store.newerCopy 1).isSome = true := by
  decide +kernel

/-- R165: the next sequence number is above a checkpoint's 12, a log's 9 and a high-water of 20. -/
theorem witness_CheckpointAndTotals_next :
    let s (hw : U32) := { (recovering 12).store with highWater := hw }
    (s 20).highWaterBefore = none ∧ (s 20).highWater ≠ 0xFFFFFFFF ∧
    (∀ e ∈ (s 20).log, e.2.record.seq ≠ 0xFFFFFFFF) ∧
    (∀ h, ((s 20).newerCopy h).all fun x => x.2.data.seq != 0xFFFFFFFF) ∧
    (s 0).nextSequence = 13 ∧ (s 20).nextSequence = 21 ∧
    { s 0 with copyB := Vector.replicate 4 none }.nextSequence = 10 := by decide +kernel

/-- R132, R166: the log holds sequence 9, so the checkpoint is cleared and recovery ends; the inputs
active since the reset are taken up. -/
theorem witness_CheckpointAndTotals_ended :
    let s := recovering 9
    let t := after .persistedTotalsUpdateComplete s
    (∃ e ∈ s.store.log, e.2.record.seq = 9) ∧ (s.store.newerCopy 1).isSome = true ∧
    s.holdsBay = false ∧ s.shut.origin = none ∧ s.link.txQueue.length < 8 ∧
    s.home[(0 : Tank)] ≠ none ∧
    t.phase = .beacon ∧ t.firstBeaconT = some 100 ∧ t.store.newerCopy 1 = none ∧
    t.shut.origin = some [.estop, .bund 0] ∧ t.shut.estop.debounced = true ∧
    t.shut.sump.debounced = false ∧ t.nv.nextSeq = 10 ∧
    (∃ e ∈ t.link.txQueue, e.frame = .spill [.estop, .bund 0]) := by
  decide +kernel

/-- R165: a log with one untotalled record, and one whole beside a tank word in error: the epoch update
goes on to the update that finishes or writes it back, and that one to the end of recovery. -/
theorem witness_CheckpointAndTotals_totals :
    let s := recovering 9
    let x : LogEntry := { record := { record with seq := 8 }, totalled := false, consumed := false }
    let cut := { s with store := { s.store with log := [(2, x)] ++ s.store.log } }
    let bad := { s with store := { s.store with
      errs := [{ area := .total 3, word := 0, double := true }] } }
    let t := after .persistedTotalsUpdateComplete cut
    let u := after .persistedTotalsUpdateComplete bad
    cut.nv.queue = [.epochUpdate 1] ∧ (2, x) ∈ cut.store.log ∧ x.totalled = false ∧
    (∀ y ∈ cut.store.log, y.2.totalled = false → y = (2, x)) ∧
    t.nv.queue = [.totalUpdate 0 (some { total := 1500, applied := 8 }) (some 2)] ∧
    t.nv.recovery = .totals [] ∧ t.phase = .recovery ∧ t.store.errs = [] ∧
    (after .persistedTotalsUpdateComplete t).phase = .beacon ∧
    (∀ y ∈ bad.store.log, y.2.totalled = true) ∧
    u.nv.queue = [.totalUpdate 3 (some { total := 0, applied := 0 }) none] ∧
    u.nv.dc = 1 ∧ u.nv.recovery = .totals [] ∧
    (after .persistedTotalsUpdateComplete u).store.errs = [] ∧
    (after .persistedTotalsUpdateComplete
      { u with nv := { u.nv with recovery := .totals [5] } }).nv.queue =
        [.totalUpdate 5 (some { total := 0, applied := 0 }) none] := by
  decide +kernel

theorem witness_Consuming :
    let full := { live with nv := { live.nv with queue := List.replicate 10 (.lock .rules) } }
    let quiet := { writing with nv := { writing.nv with unannounced := [3] } }
    live.LineFree ∧ 10 ≤ full.nv.queue.length ∧ live.nv.queue.length < 10 ∧
    (∀ x ∈ quiet.store.log, x.1 ∈ quiet.nv.unannounced) ∧
    (∃ x ∈ writing.store.log, x.2.consumed = false ∧ x.2.record.seq.toNat ≤ (9 : U32).toNat ∧
      x.1 ∉ writing.nv.unannounced) ∧
    { live.nv with queue := [.consume [3] 0] }.queue = [.consume [3] 0] ∧
    { live.term with engine := some 0x10 }.engine = some 0x10 := by
  delta State.LineFree; decide +kernel

/-- R163: of two records at or below the sequence one is announced and consumed, the other counted as
left; with neither announced nothing is consumed. -/
theorem witness_Consuming_left :
    let s (l : List Nat) := { live with
      store := { live.store with
        log := [(3, { record := record, totalled := true, consumed := false }),
                (5, { record := { record with seq := 8 }, totalled := true, consumed := false }),
                (6, { record := { record with seq := 10 }, totalled := true, consumed := false })] },
      nv := { live.nv with unannounced := l } }
    ((s [3, 6]).unconsumedBelow 9 false).length = 1 ∧
    ((s [3, 6]).unconsumedBelow 9 true).length = 1 ∧
    (after (.consumeRecords 9) (s [3, 6])).nv.queue = [.consume [5] 1] ∧
    (after (.consumeRecords 9) (s [3, 5, 6])).term.slot.map Reply.items = some [0, 0, 0, 2] := by
  decide +kernel

theorem witness_Commissioning :
    let open1 := live.modTerm fun t => { t with latch := true }
    let locked := open1.modStore fun x => { x with locks := put x.locks 4 true }
    let full := open1.modNv fun n => { n with queue := List.replicate 10 (.lock .rules) }
    let done (j : Job) := (open1.modTerm fun t => { t with engine := some 0x22 }).modNv fun n =>
      { n with queue := [j] }
    live.LineFree ∧ sectionOf 5 = some .rules ∧ sectionOf 6 = none ∧
    live.term.latch = false ∧
    open1.term.latch = true ∧ sectionSize .rules < (65535 : U16).toNat + 1 ∧
    (0 : U16).toNat + 16 ≤ sectionSize .rules ∧
    locked.store.CountsLocked .rules ∧ ¬ open1.store.CountsLocked .rules ∧ 10 ≤ full.nv.queue.length ∧
    open1.nv.queue.length < 10 ∧
    (done (.configWrite .rules 0 [1])).nv.queue = [.configWrite .rules 0 [1]] ∧
    (done (.lock .rules)).nv.queue = [.lock .rules] ∧
    (done (.lock .rules)).term.engine = some 0x22 := by
  delta State.LineFree Store.CountsLocked; decide +kernel

/-- R164, R174: a lock word with a double error locks and is counted; one with a single error is counted
and does not. -/
theorem witness_Commissioning_errors :
    let s (d : Bool) := (live.modTerm fun t => { t with latch := true }).modStore fun x => { x with
      errs := [{ area := .lock .rules, word := 0, double := d }] }
    let t (d : Bool) := after (.configLock 5) (s d)
    let u (d : Bool) := after (.configWrite 5 0 [1]) (s d)
    (s true).LineFree ∧ (s true).store.CountsLocked .rules ∧ ¬ (s false).store.CountsLocked .rules ∧
    (t true).term.slot.map Reply.items = some [7] ∧ (t true).nv.dc = 1 ∧
    (t true).nv.dcCap = some (.lock .rules, 0) ∧ (t true).flagSet .nv = true ∧
    (t false).term.engine = some 0x24 ∧ (t false).nv.sc = 1 ∧
    (t false).nv.queue = [.lock .rules] ∧ (u true).nv.dc = 1 ∧ (u false).nv.sc = 1 ∧
    (u false).term.engine = some 0x22 := by
  delta State.LineFree Store.CountsLocked; decide +kernel

theorem witness_CalOverride :
    let keyed := live.modTerm fun t => { t with key := true }
    live.LineFree ∧ live.term.key = false ∧ keyed.term.key = true ∧ keyed.MetersOperate ∧
    (3 : Byte).toNat = (3 : Hose).val ∧ 1000 ≤ (1000 : U32).toNat ∧
    (9999999 : U32).toNat ≤ 9999999 ∧ (BitVec.ofInt 32 (-50000) : U32).toInt = -50000 ∧
    (BitVec.ofInt 32 (-50001) : U32).toInt < -50000 ∧ (keyed.fill 3).state = .idle ∧
    (paused.fill 0).state ≠ .idle ∧
    ¬ { keyed with cfg := { keyed.cfg with valid := Vector.replicate 5 false } }.MetersOperate := by
  delta State.LineFree State.MetersOperate; decide +kernel

theorem witness_CalRevert :
    proving.LineFree ∧ (0 : Byte).toNat = (0 : Hose).val ∧ live.hoses[(0 : Hose)].override = none ∧
    proving.hoses[(0 : Hose)].override.isSome = true ∧ (proving.fill 0).state = .idle ∧
    proving.sectionValid .hoses = true ∧ State.reset.sectionValid .hoses = false ∧
    State.reset.cfg.loading.isSome = true := by
  delta State.LineFree; decide +kernel

theorem witness_Loading :
    let wrong := live.modCfg fun c => { c with parity := Vector.replicate 5 [true] }
    let right := live.modCfg fun c => { c with parity :=
      #v[sectionParity c.data .station, sectionParity c.data .hoses, sectionParity c.data .tanks,
         sectionParity c.data .products, sectionParity c.data .rules] }
    live.LineFree ∧ paused.allIdle = false ∧ live.allIdle = true ∧
    State.reset.cfg.loading = some .reset ∧ State.reset.nv.queue = [] ∧
    { live.cfg with loading := some .request }.loading = some .request ∧
    { live.term with engine := some 0x25 }.engine = some 0x25 ∧
    live.cfg.parityT.isSome = true ∧
    (right.sectionMismatch || right.overrideMismatch) = false ∧
    (wrong.sectionMismatch || wrong.overrideMismatch) = true ∧ wrong.cfg.parityFault = false ∧
    wrong.cfg.fault = false ∧ (paused.fill 0).running = true ∧
    ((timed .armed).fill 0).waits = true ∧ visited.visit.state = .opened ∧
    (after .parityCheck { visited with cfg := wrong.cfg }).visit.lastOutcome =
      some .configFault := by
  delta State.LineFree; decide +kernel

/-- R39, R74, R169, R170: a load that finds a section invalid ends the visit and the fills, and answers
RELOAD_CONFIG with the sections' validity and CONFIG_FAULT. -/
theorem witness_Loading_fault :
    let s := State.fill0 { visited with
      cfg := { visited.cfg with loading := some .request },
      term := { visited.term with engine := some 0x25 },
      store := { visited.store with config := { visited.cfg.data with
        station := { number := 0, rate := 1, homed := 0 } } } } (filling .flowing)
    let t := after .configLoadingComplete s
    s.cfg.fault = false ∧ t.cfg.fault = true ∧ s.visit.state = .opened ∧
    (s.fill 0).running = true ∧ t.visit.state = .ending ∧
    t.visit.lastOutcome = some .configFault ∧ (t.fill 0).endCause = some .configFault ∧
    (t.term.slot.map Reply.items).map (fun l => (l.length, l.head?, l.getLast?)) =
      some (6, some 0, some 1) := by decide +kernel

/-- R164, R165, R168: a load reads the words of the sections, after a reset that of the epoch too: a double
error makes its section invalid. -/
theorem witness_Loading_errors :
    let s (c : LoadCause) := { live with
      cfg := { live.cfg with loading := some c },
      store := { live.store with errs :=
        [{ area := .config .rules, word := 3, double := true },
         { area := .epoch, word := 0, double := false },
         { area := .lock .rules, word := 0, double := true }] } }
    let t (c : LoadCause) := after .configLoadingComplete (s c)
    (s .request).cfg.loading = some .request ∧
    (t .request).sectionValid .rules = false ∧ (t .request).sectionValid .hoses = true ∧
    (t .request).nv.dc = 1 ∧ (t .request).nv.sc = 0 ∧
    (t .request).nv.dcCap = some (.config .rules, 3) ∧ (t .request).flagSet .nv = true ∧
    (t .reset).nv.dc = 1 ∧ (t .reset).nv.sc = 1 ∧ (t .reset).nv.scCap = some (.epoch, 0) := by
  decide +kernel

/-- R85, R92, R106, R117: a load by which tank 2 joins the homed list, and one by which tank 1 leaves it
with a receipt open, its view emptied and its reservation released. -/
theorem witness_Loading_tanks :
    let load (homed : Byte) (home1 : Byte) := { (gauging fun u => { u with receipt := some receipt })
        with
      cfg := { live.cfg with loading := some .request },
      nv := { live.nv with reservations := 3 },
      views := put live.views 0 { live.views[(0 : Tank)] with
        stock := some { litres := 48200, ml := 0 }, state := .normal, degraded := true },
      store := { live.store with config := { live.store.config with
        station := { number := 1, rate := 1, homed := homed },
        tanks := put (put live.store.config.tanks 0
          { live.store.config.tanks[(0 : Tank)] with home := home1 }) 1
          { live.store.config.tanks[(1 : Tank)] with home := 1 } } } }
    let joined := after .configLoadingComplete (load 3 1)
    let left := after .configLoadingComplete (load 2 2)
    joined.sectionValid .station = true ∧ joined.sectionValid .tanks = true ∧
    joined.home[(1 : Tank)].isSome = true ∧
    (joined.pumps[(1 : Tank)].map fun q => (q.state, q.restT)) = some (.resting, some 10000) ∧
    joined.views[(1 : Tank)].pump = .known .resting none ∧
    joined.home[(0 : Tank)] = (load 3 1).home[(0 : Tank)] ∧
    joined.pumps[(0 : Tank)] = live.pumps[(0 : Tank)] ∧
    joined.views[(0 : Tank)].stock = some { litres := 48200, ml := 0 } ∧
    joined.nv.reservations = 3 ∧
    left.home[(0 : Tank)] = none ∧ left.pumps[(0 : Tank)] = none ∧
    (load 2 2).releasedBy left = 1 ∧ left.nv.reservations = 2 ∧
    (load 2 2).EmptiesView left 0 ∧ left.views[(0 : Tank)].stock = none ∧
    left.views[(0 : Tank)].degraded = false ∧ left.views[(0 : Tank)].pump = .unknown := by
  delta State.EmptiesView; decide +kernel

/-- R4, R18, R106, R176: a load that finds HOSES invalid ends the override and the fault runs; one that
finds STATION invalid removes the controllers and keeps the home tank units. -/
theorem witness_Loading_invalid :
    let load (sec : Section) := { (State.meter0 live fun m => { m with mismatchRun := 1 }) with
      cfg := { live.cfg with loading := some .request },
      store := { live.store with
        errs := [{ area := .config sec, word := 0, double := true }] } }
    let t (sec : Section) := after .configLoadingComplete (load sec)
    (t .hoses).sectionValid .hoses = false ∧ ¬ (t .hoses).MetersOperate ∧
    ((t .hoses).meter 0).mismatchRun = 0 ∧ (t .rules).MetersOperate ∧
    ((t .rules).meter 0).mismatchRun = 1 ∧
    (t .station).sectionValid .station = false ∧ (t .station).pumps[(0 : Tank)] = none ∧
    (t .station).views[(0 : Tank)].pump = .unknown ∧
    (t .station).home[(0 : Tank)] = live.home[(0 : Tank)] := by
  delta State.MetersOperate; decide +kernel

/-- R152: loads that keep the number, change it on an idle line, in WAIT and while sending, and that
find the section invalid. -/
theorem witness_Loading_link :
    let load (n : Byte) (l : Link → Link) := after .configLoadingComplete { live.modLink l with
      cfg := { live.cfg with loading := some .request },
      store := { live.store with config := { live.store.config with
        station := { number := n, rate := 1, homed := 0 },
        tanks := Vector.replicate 8 { TankCfg.shipped with home := 0 } } } }
    let query := fun l => { l with txQueue := [{ frame := .query 7, sending := false }], retry := 3 }
    let busy := fun l : Link => { l with
      line := .sending, txQueue := [{ frame := .query 7, sending := true }], retry := 3 }
    (load 1 query).sectionValid .station = true ∧ (load 0 query).sectionValid .station = false ∧
    (load 1 query).link.number = some 0 ∧ (load 1 query).link.retry = 3 ∧
    (load 1 query).link.txQueue.length = 1 ∧ (load 7 query).link.txQueue = [] ∧
    (load 7 query).link.retry = 0 ∧ (load 7 query).ownNumber = some 6 ∧
    (load 7 busy).link.line = .wait ∧ (load 7 busy).link.txQueue = [] ∧
    (load 7 busy).link.next = some (some 6, 1) ∧ (load 7 busy).ownNumber = some 0 ∧
    (load 0 busy).link.line = .wait ∧ (load 0 busy).link.next = none ∧
    (load 0 busy).ownNumber = none := by decide +kernel

theorem witness_LaneState :
    let closed := { live with laneClosed := true }
    let closing := { paused with closePending := true }
    live.LineFree ∧ closed.laneClosed = true ∧ closing.closePending = true ∧
    live.laneClosed = false ∧ live.closePending = false ∧ (paused.fill 0).running = true ∧
    ((timed .armed).fill 0).waits = true ∧ visited.visit.state = .opened ∧
    live.tag.act = .off ∧ live.link.dupStation = false ∧
    (hooked true (some true) closed).hoses[(0 : Hose)].hook.debounced = some true ∧
    closed.hoses[(0 : Hose)].hook.debounced ≠ some true := by
  delta State.LineFree; decide +kernel

end Sys2Proof.Tests
end

section
/-! SUPPORT. The strapping table and what a valid sample takes from it (R87). -/

namespace Sys2Proof.Machine

/-! ## The strapping table -/

/-- R85, R87: the levels of a table strictly ascend and its gross volumes do not fall, said of any two
of its points; the premise of O38. -/
def StrapAscends (pts : List (Nat × Nat)) : Prop :=
  pts.Pairwise fun a b => a.1 < b.1 ∧ a.2 ≤ b.2

theorem StrapAscends.tail {p : Nat × Nat} {rest : List (Nat × Nat)}
    (asc : StrapAscends (p :: rest)) : StrapAscends rest := List.Pairwise.of_cons asc

theorem StrapAscends.head_lt {p q : Nat × Nat} {rest : List (Nat × Nat)}
    (asc : StrapAscends (p :: rest)) (hq : q ∈ rest) : p.1 < q.1 :=
  (List.rel_of_pairwise_cons asc hq).1

theorem StrapAscends.head_le {p q : Nat × Nat} {rest : List (Nat × Nat)}
    (asc : StrapAscends (p :: rest)) (hq : q ∈ p :: rest) : p.1 ≤ q.1 := by
  rcases List.mem_cons.mp hq with rfl | hq
  · exact le_rfl
  · exact (asc.head_lt hq).le

/-- The model's check of neighbouring points is this property of any two points. -/
theorem strapUsable_iff_strapAscends (pts : List (Nat × Nat)) :
    strapUsable pts = true ↔ StrapAscends pts := by
  induction pts with
  | nil => simp [strapUsable, StrapAscends]
  | cons p rest ih =>
    cases rest with
    | nil => simp [strapUsable, StrapAscends]
    | cons q rest =>
      simp only [strapUsable, Bool.and_eq_true, decide_eq_true_eq, ih]
      constructor
      · rintro ⟨⟨hlevel, hvolume⟩, asc⟩
        refine List.Pairwise.cons (fun z hz => ?_) asc
        rcases List.mem_cons.mp hz with rfl | hz
        · exact ⟨hlevel, hvolume⟩
        · obtain ⟨hlevel', hvolume'⟩ := List.rel_of_pairwise_cons asc hz
          exact ⟨hlevel.trans hlevel', hvolume.trans hvolume'⟩
      · intro asc
        exact ⟨List.rel_of_pairwise_cons asc List.mem_cons_self, asc.tail⟩

theorem strapVolume_le_head {p : Nat × Nat} {L : Nat} (rest : List (Nat × Nat)) (hL : L ≤ p.1) :
    strapVolume (p :: rest) L = (p.2, false) := by
  cases rest with
  | nil => simp [strapVolume, hL]
  | cons q rest => simp [strapVolume, hL]

/-- A level at the lower point of a segment falls under the model's first case; the interpolated part
is 0 there, so R87's formula holds of the whole segment. -/
theorem strapVolume_segment {p q : Nat × Nat} {L : Nat} (rest : List (Nat × Nat)) (hp : p.1 ≤ L)
    (hq : L < q.1) : strapVolume (p :: q :: rest) L =
      (p.2 + (q.2 - p.2) * (L - p.1) / (q.1 - p.1), false) := by
  rcases hp.eq_or_lt with heq | hlt
  · simp [strapVolume_le_head _ heq.ge, heq]
  · simp [strapVolume, hlt.not_ge, hq]

/-- At or above the second point, the first one does not count. -/
theorem strapVolume_skip {p q : Nat × Nat} {L : Nat} (rest : List (Nat × Nat)) (hpq : p.1 < q.1)
    (hq : q.1 ≤ L) : strapVolume (p :: q :: rest) L = strapVolume (q :: rest) L := by
  have hp : ¬ L ≤ p.1 := by omega
  simp [strapVolume, hp, hq.not_gt]

theorem strapVolume_last_le {pts : List (Nat × Nat)} {z : Nat × Nat} {L : Nat}
    (asc : StrapAscends pts) (hz : pts.getLast? = some z) (hL : z.1 ≤ L) :
    strapVolume pts L = (z.2, decide (z.1 < L)) := by
  induction pts with
  | nil => simp at hz
  | cons p rest ih =>
    cases rest with
    | nil =>
      obtain rfl : p = z := by simpa using hz
      rfl
    | cons q rest =>
      have hz' : (q :: rest).getLast? = some z := by rwa [List.getLast?_cons_cons] at hz
      have hq : q.1 ≤ L := (asc.tail.head_le (List.mem_of_getLast? hz')).trans hL
      rw [strapVolume_skip rest (asc.head_lt List.mem_cons_self) hq]
      exact ih asc.tail hz'

theorem strapVolume_between {pts : List (Nat × Nat)} {i : Nat} {p q : Nat × Nat} {L : Nat}
    (asc : StrapAscends pts) (hi : pts[i]? = some p) (hj : pts[i + 1]? = some q) (hp : p.1 ≤ L)
    (hq : L < q.1) :
    strapVolume pts L = (p.2 + (q.2 - p.2) * (L - p.1) / (q.1 - p.1), false) := by
  induction pts generalizing i with
  | nil => simp at hi
  | cons a rest ih =>
    cases rest with
    | nil => simp at hj
    | cons b rest =>
      cases i with
      | zero =>
        obtain rfl : a = p := by simpa using hi
        obtain rfl : b = q := by simpa using hj
        exact strapVolume_segment rest hp hq
      | succ i =>
        have hi' : (b :: rest)[i]? = some p := by simpa using hi
        have hb : b.1 ≤ L := (asc.tail.head_le (List.mem_of_getElem? hi')).trans hp
        rw [strapVolume_skip rest (asc.head_lt List.mem_cons_self) hb]
        exact ih asc.tail hi' (by simpa using hj)

/-! ## What a valid sample takes from the table -/

@[simp] theorem HomeUnit.resumeRecon_gross (u : HomeUnit) : u.resumeRecon.gross = u.gross := by
  unfold HomeUnit.resumeRecon; split <;> rfl

@[simp] theorem HomeUnit.resumeRecon_overStrap (u : HomeUnit) :
    u.resumeRecon.overStrap = u.overStrap := by
  unfold HomeUnit.resumeRecon; split <;> rfl

@[simp] theorem HomeUnit.validSample_gross (u : HomeUnit) (a L : Nat) (r : Reading) :
    (u.validSample a L r).gross = some (strapVolume u.cfg.points L).1 := by
  unfold HomeUnit.validSample; dsimp only; split <;> simp

@[simp] theorem HomeUnit.validSample_overStrap (u : HomeUnit) (a L : Nat) (r : Reading) :
    (u.validSample a L r).overStrap = (strapVolume u.cfg.points L).2 := by
  unfold HomeUnit.validSample; dsimp only; split <;> simp

end Sys2Proof.Machine

namespace Sys2Proof.Settled

open Sys2Proof.Machine

/-! ## The statement -/

/-- Settles O38: the three ranges of R87 by recursion along the table, and a valid sample, whose
change of the reconciliation leaves gross volume and OVER_STRAP as the table gave them. -/
theorem strapVolume : Obligations.StrapVolume := by
  unfold Obligations.StrapVolume
  refine ⟨fun pts L asc => ⟨fun p hp hL => ?_, fun z hz hL => strapVolume_last_le asc hz hL,
    fun i p q hi hj hp hq => strapVolume_between asc hi hj hp hq⟩,
    fun u a L r => ⟨u.validSample_gross a L r, u.validSample_overStrap a L r⟩⟩
  obtain ⟨rest, rfl⟩ := List.head?_eq_some_iff.mp hp
  exact strapVolume_le_head rest hL

end Sys2Proof.Settled
end

section
/-! SUPPORT. CLEAR_HOSE_FAULT and CLEAR_LANE_SHUTDOWN (R120, R122): when their checks fail, and what a
request of a free line then answers (R178, R179). -/

namespace Sys2Proof.Machine

/-! ## A request taken on a free line -/

theorem hoseOf_eq_none {b : Byte} (h : 4 ≤ b.toNat) : hoseOf b = none := dif_neg (by omega)

theorem hoseOf_eq_some {b : Byte} {h : Hose} (e : b.toNat = h.val) : hoseOf b = some h := by
  unfold hoseOf
  rw [dif_pos (by omega)]
  exact congrArg some (Fin.ext e)

/-- A rule that refuses leaves the reply alone. -/
theorem State.request_refused {s : State} (free : s.LineFree) {code : Byte} {n : Nat} {r : Reason}
    {rule : State → State × Answer} (h : rule (s.atRequest n) = (s.atRequest n, .refused r)) :
    s.request code n rule = s.replied code n .refused [r.code] := by
  rw [State.request_free free, h]
  exact s.atRequest_refused n code r

/-- A rule that is done answers on the state it leaves. -/
theorem State.request_done {s u : State} (free : s.LineFree) {code : Byte} {n : Nat}
    {items : List Byte} {rule : State → State × Answer}
    (h : rule (s.atRequest n) = (u, .done items)) :
    s.request code n rule = u.formReply code .done items := by
  rw [State.request_free free, h]
  rfl

/-! ## What bars CLEAR_HOSE_FAULT and CLEAR_LANE_SHUTDOWN (R120, R122) -/

theorem State.hoseFaulted_eq_false_iff {s : State} {h : Hose} :
    s.hoseFaulted h = false ↔ s.hoses[h].faults = { meter := false, valve := false } := by
  unfold State.hoseFaulted
  obtain ⟨m, v⟩ := s.hoses[h].faults
  simp

theorem State.hoseCausePresent_iff {s : State} {h : Hose} :
    s.hoseCausePresent h = true ↔
      (s.hoses[h].faults.meter = true ∧ (s.meter h).mismatchRun = 5) ∨
      (s.hoses[h].faults.valve = true ∧ s.hoses[h].valve.present = true) := by
  simp [State.hoseCausePresent, Config.mismatchLimit]

theorem State.hoseCausePresent_eq_false {s : State} {h : Hose}
    (hm : s.hoses[h].faults.meter = true → (s.meter h).mismatchRun ≠ 5)
    (hv : s.hoses[h].faults.valve = true → s.hoses[h].valve.present = false) :
    s.hoseCausePresent h = false := by
  rw [Bool.eq_false_iff]
  intro present
  rcases State.hoseCausePresent_iff.mp present with ⟨f, p⟩ | ⟨f, p⟩
  · exact hm f p
  · rw [hv f] at p
    cases p

theorem State.creepPresent_iff {s : State} {h : Hose} :
    s.creepPresent h = true ↔ ∃ c : Creep, (s.meter h).creep = some c ∧ c.raised = true := by
  unfold State.creepPresent
  cases (s.meter h).creep <;> simp

theorem State.creepActive_iff {s : State} :
    s.creepActive = true ↔ ∃ (h : Hose) (c : Creep), s.shut.creepList[h] = true ∧
      (s.meter h).creep = some c ∧ c.raised = true := by
  simp only [State.creepActive, List.any_eq_true, mem_indices, true_and, Bool.and_eq_true,
    State.creepPresent_iff, exists_and_left]

theorem State.creepActive_eq_false {s : State}
    (quiet : ∀ (h : Hose) (c : Creep), s.shut.creepList[h] = true → (s.meter h).creep = some c →
      c.raised = false) : s.creepActive = false := by
  rw [Bool.eq_false_iff]
  intro active
  obtain ⟨h, c, listed, isCreep, raised⟩ := State.creepActive_iff.mp active
  rw [quiet h c listed isCreep] at raised
  cases raised

/-! ## The two requests -/

/-- R120: CLEAR_HOSE_FAULT that names a hose. -/
theorem exec_clearHoseFault {s : State} {b : Byte} {h : Hose} (e : b.toNat = h.val) :
    exec (.clearHoseFault b) s = .next (s.request 0x14 1 fun s =>
      guarded [(s.hoseFaulted h, .state), (!s.hoseCausePresent h, .causeActive)] s
        (s.clearFault h, .done [])) := by
  show execClearHoseFault b s = _
  unfold execClearHoseFault
  rw [hoseOf_eq_some e]

/-- R122: CLEAR_LANE_SHUTDOWN and its checks. -/
theorem exec_clearLaneShutdown (s : State) :
    exec .clearLaneShutdown s = .next (s.request 0x15 0 fun s =>
      guarded [(s.shut.latch, .state), (!s.creepActive, .causeActive)] s
        (s.clearLane.settle s, .done [])) := rfl

/-- R120: the hose number is out of range. -/
theorem exec_clearHoseFault_range {s : State} {b : Byte} (free : s.LineFree) (hb : 4 ≤ b.toNat) :
    exec (.clearHoseFault b) s = .next (s.replied 0x14 1 .refused [12]) := by
  show execClearHoseFault b s = _
  unfold execClearHoseFault
  rw [hoseOf_eq_none hb]
  exact congrArg Host.Outcome.next (State.request_refused (r := .range) free rfl)

end Sys2Proof.Machine

namespace Sys2Proof.Settled

open Sys2Proof.Machine

/-! ## The statement -/

/-- Settles O46: the two checks of each request in their order, then its effect. -/
theorem clearFaults : Obligations.ClearFaults := by
  unfold Obligations.ClearFaults
  refine ⟨fun s b free => ⟨exec_clearHoseFault_range free, fun h e => ?_⟩, fun s free => ?_⟩
  · have fault : (s.atRequest 1).hoseFaulted h = false ↔
        s.hoses[h].faults = { meter := false, valve := false } := State.hoseFaulted_eq_false_iff
    rw [exec_clearHoseFault e]
    refine ⟨fun empty => ?_, fun faults => ⟨fun present => ?_, fun hm hv => ?_⟩⟩
    · refine congrArg Host.Outcome.next (State.request_refused (r := .state) free ?_)
      exact guarded_refused (by rw [fault.mpr empty]; rfl) _ _
    all_goals have faulted : (s.atRequest 1).hoseFaulted h = true :=
      (Bool.not_eq_false _).mp (mt fault.mp faults)
    · have cause : (s.atRequest 1).hoseCausePresent h = true :=
        State.hoseCausePresent_iff.mpr present
      refine congrArg Host.Outcome.next (State.request_refused (r := .causeActive) free ?_)
      exact guarded_refused (by rw [faulted, cause]; rfl) _ _
    · have noCause : (s.atRequest 1).hoseCausePresent h = false :=
        State.hoseCausePresent_eq_false hm hv
      exact congrArg Host.Outcome.next (State.request_done (u := (s.atRequest 1).clearFault h) free
        (guarded_ok (by rw [faulted, noCause]; rfl) _ _))
  · have latch : (s.atRequest 0).shut.latch = s.shut.latch := rfl
    rw [exec_clearLaneShutdown]
    refine ⟨fun clear => ?_, fun latched => ⟨fun active => ?_, fun quiet => ?_⟩⟩
    · refine congrArg Host.Outcome.next (State.request_refused (r := .state) free ?_)
      exact guarded_refused (by rw [latch, clear]; rfl) _ _
    · have creep : (s.atRequest 0).creepActive = true := State.creepActive_iff.mpr active
      refine congrArg Host.Outcome.next (State.request_refused (r := .causeActive) free ?_)
      exact guarded_refused (by rw [latch, latched, creep]; rfl) _ _
    · have noCreep : (s.atRequest 0).creepActive = false := State.creepActive_eq_false quiet
      refine ⟨(s.atRequest 0).clearLane, ?_, rfl⟩
      exact congrArg Host.Outcome.next (State.request_done free
        (guarded_ok (by rw [latch, latched, noCreep]; rfl) _ _))

end Sys2Proof.Settled
end

section
/-! SUPPORT. What a change of the source set can do (R131), what a bay shutdown stops (R38, R110), and the
SPILL and RESTORE frames of another station (R128). -/

namespace Sys2Proof.Machine

/-! ## The source set (R131) -/

theorem State.holdsBay_congr {s u : State} (e : u.shut = s.shut) : u.holdsBay = s.holdsBay := by
  unfold State.holdsBay
  rw [e]

theorem State.holdsBay_of_source {s : State} {p : Station} (h : s.shut.sources[p].isSome = true) :
    s.holdsBay = true :=
  Bool.or_eq_true_iff.mpr (.inr (List.any_eq_true.mpr ⟨p, mem_indices p, h⟩))

/-- A change of a set that is not empty can only end the bay shutdown. -/
theorem State.changeSources_of_held {s : State} (f : State → State) (h : s.holdsBay = true) :
    s.changeSources f =
      if (f s).holdsBay then f s else ((f s).raise .shutdown).releasePumps := by
  unfold State.changeSources
  cases e : (f s).holdsBay <;> simp [h, e]

/-- A set that becomes non-empty begins a bay shutdown. -/
theorem State.changeSources_begins {s : State} {f : State → State} (h : s.holdsBay = false)
    (h' : (f s).holdsBay = true) :
    s.changeSources f =
      (((f s).modShut fun u => { u with bayShutdowns := sat16 u.bayShutdowns }).raise
        .shutdown).stopAll := by
  simp [State.changeSources, h, h']

/-! ## What stops at a bay shutdown (R38, R110) -/

/-- R38: a shutdown has reached the fill. -/
def Fill.Stopped (f : Fill) : Prop := f.valveCmd = 0 ∧ f.running = false ∧ f.waits = false

/-- R110: no contactor is on at a tank. -/
def State.PumpOff (t : Tank) (s : State) : Prop :=
  ∀ q : Pump, s.pumps[t] = some q → q.state ≠ .starting ∧ q.state ≠ .running ∧ q.state ≠ .runOn

theorem State.bayStopped_iff {s : State} :
    s.BayStopped ↔ (∀ h : Hose, (s.fill h).Stopped) ∧ ∀ t : Tank, s.PumpOff t := Iff.rfl

/-- R37: no fill runs after an end condition. -/
theorem Fill.endBy_running (f : Fill) (c : EndCause) : (f.endBy c).running = false := by
  unfold Fill.endBy
  split
  · split <;> rfl
  next h =>
    split
    · exact Bool.eq_false_iff.mpr h
    · exact Bool.eq_false_iff.mpr h

theorem State.shutFill_fill_ne (s : State) {h k : Hose} (n : k ≠ h) :
    (s.shutFill h).fill k = s.fill k := by
  obtain ⟨-, others, -⟩ := s.endFill_frame h .shutdown
  rw [State.shutFill, State.modFill_fill_ne _ _ n.symm, others k n]

theorem State.endFill_running (s : State) (h : Hose) (c : EndCause) :
    ((s.endFill h c).fill h).running = false := by
  unfold State.endFill
  split
  · rw [State.disarm_fill, if_pos rfl]
    rfl
  · rw [State.modFill_fill_self]
    exact Fill.endBy_running _ c

theorem State.shutFill_stopped (s : State) (h : Hose) : ((s.shutFill h).fill h).Stopped := by
  obtain ⟨-, -, waits, -⟩ := s.endFill_frame h .shutdown
  rw [State.shutFill, State.modFill_fill_self]
  exact ⟨rfl, s.endFill_running h .shutdown, waits⟩

/-- R38: what a shutdown leaves alone as it reaches the fill of one hose. -/
theorem State.shutFill_frame (s : State) (h : Hose) : FaultFrame s (s.shutFill h) := by
  obtain ⟨ends, -⟩ := s.endFill_frame h .shutdown
  exact ends.trans ⟨rfl, fun k => State.modFill_hose _ h k _, BitVec.and_self⟩

theorem State.shutFills_frame (s : State) : FaultFrame s s.shutFills :=
  forHoses_keeps (FaultFrame s) s (.rfl' s) fun u h a => a.trans (u.shutFill_frame h)

theorem State.shutFills_stopped (s : State) (h : Hose) : (s.shutFills.fill h).Stopped :=
  of_eq_true <| forHoses_at (f := fun h s => s.shutFill h) (P := fun h s => (s.fill h).Stopped)
    (C := fun _ => ()) (g := fun _ _ _ => True) (fun _ _ => rfl)
    (fun _ _ s n => congrArg Fill.Stopped (s.shutFill_fill_ne n))
    (fun h s => eq_true (s.shutFill_stopped h)) s h

/-- R113: what a change of one controller does to all of them. -/
theorem State.changePump_pumps (s : State) (t : Tank) (f : Pump → Pump) :
    (s.changePump t f).pumps = put s.pumps t (s.pumps[t].map f) := by
  unfold State.changePump
  dsimp only
  split
  · rfl
  · rw [(State.setPumpView_moves _ t _).rest]
    rfl

theorem PumpState.contactor_eq_false_iff {x : PumpState} :
    x.contactor = false ↔ x ≠ .starting ∧ x ≠ .running ∧ x ≠ .runOn := by
  cases x <;> simp [PumpState.contactor]

/-- R110: what a shutdown does to a controller. -/
def Pump.forced (p : Pump) : Pump := if p.state.contactor then p.rest else p

theorem Pump.forced_contactor (p : Pump) : p.forced.state.contactor = false := by
  unfold Pump.forced
  split
  · rfl
  next off => exact Bool.eq_false_iff.mpr off

theorem State.forcePump_pumps (s : State) (t : Tank) :
    (s.forcePump t).pumps = put s.pumps t (s.pumps[t].map Pump.forced) := by
  unfold State.forcePump
  split
  next absent => rw [absent, Option.map_none, ← absent, put_self]
  next p present =>
    rw [present, Option.map_some, Pump.forced]
    split
    · rw [State.restPump, State.changePump_pumps, present, Option.map_some]
    · rw [← present, put_self]

theorem State.forcePump_pumps_ne (s : State) {t k : Tank} (n : k ≠ t) :
    (s.forcePump t).pumps[k] = s.pumps[k] := by
  simp only [State.forcePump_pumps, put_get_ne n.symm]

theorem State.forcePump_off (s : State) (t : Tank) : (s.forcePump t).PumpOff t := by
  intro q hq
  simp only [State.forcePump_pumps, put_get, Option.map_eq_some_iff] at hq
  obtain ⟨p, -, rfl⟩ := hq
  exact PumpState.contactor_eq_false_iff.mp p.forced_contactor

theorem State.forcePumps_off (s : State) (t : Tank) : s.forcePumps.PumpOff t :=
  of_eq_true <| forTanks_at (f := fun t s => s.forcePump t) (P := State.PumpOff)
    (C := fun _ => ()) (g := fun _ _ _ => True) (fun _ _ => rfl)
    (fun _ _ s n => by simp only [State.PumpOff, s.forcePump_pumps_ne n])
    (fun t s => eq_true (s.forcePump_off t)) s t

theorem FaultFrame.pumps {s u : State} (a : FaultFrame s u) : u.pumps = s.pumps := by rw [a.rest]

theorem FaultFrame.shut {s u : State} (a : FaultFrame s u) : u.shut = s.shut := by rw [a.rest]

theorem State.stopAll_stopped (s : State) : s.stopAll.BayStopped := by
  refine State.bayStopped_iff.mpr ⟨s.forcePumps.shutFills_stopped, fun t => ?_⟩
  have pumps : s.stopAll.pumps = s.forcePumps.pumps := s.forcePumps.shutFills_frame.pumps
  simp only [State.PumpOff, pumps]
  exact s.forcePumps_off t

theorem State.stopAll_shut (s : State) : s.stopAll.shut = s.shut :=
  s.forcePumps.shutFills_frame.shut.trans s.forcePumps_close.shut

theorem State.stopAll_flags (s : State) : s.stopAll.flags &&& s.flags = s.flags :=
  flags_and_trans (by rw [BitVec.and_comm]; exact s.forcePumps_close.flags)
    s.forcePumps.shutFills_frame.flags

theorem State.raise_flagSet (s : State) (e : EventFlag) : (s.raise e).flagSet e = true := by
  cases e <;> simp [State.flagSet, EventFlag.mask, EventFlag.bit]

/-! ## A SPILL or a RESTORE of a station (R128) -/

/-- R128: what a SPILL does to the shutdown unit: the station is in the source set with the cause list. -/
def Shutdown.spilt (u : Shutdown) (p : Station) (l : List Byte) : Shutdown :=
  { u with sources := put u.sources p (some { clear := 0, causes := some (spillCauses l) }) }

theorem State.spilt_holdsBay (s : State) (p : Station) (l : List Byte) :
    (s.modShut fun u => u.spilt p l).holdsBay = true :=
  State.holdsBay_of_source (p := p) (by simp [Shutdown.spilt])

/-- R128: with the bay held a SPILL changes the source set alone. -/
theorem State.takeSpill_held {s : State} (p : Station) (l : List Byte) (h : s.holdsBay = true) :
    s.takeSpill p l = s.modShut fun u => u.spilt p l := by
  have e := State.changeSources_of_held (fun s => s.modShut fun u => u.spilt p l) h
  rwa [if_pos (s.spilt_holdsBay p l)] at e

/-- R128, R131: with the source set empty a SPILL begins a bay shutdown, which is counted. -/
theorem State.takeSpill_free {s : State} (p : Station) (l : List Byte) (h : s.holdsBay = false) :
    (s.takeSpill p l).BayStopped ∧
    (s.takeSpill p l).shut =
      { s.shut.spilt p l with bayShutdowns := sat16 s.shut.bayShutdowns } ∧
    (s.takeSpill p l).flagSet .shutdown = true := by
  have e : s.takeSpill p l = (((s.modShut fun u => u.spilt p l).modShut fun u =>
      { u with bayShutdowns := sat16 u.bayShutdowns }).raise .shutdown).stopAll :=
    State.changeSources_begins h (s.spilt_holdsBay p l)
  rw [e]
  exact ⟨State.stopAll_stopped _, State.stopAll_shut _,
    State.flagSet_mono (State.stopAll_flags _) _ (State.raise_flagSet _ _)⟩

/-- R128: a RESTORE of a station outside the source set changes nothing. -/
theorem State.dropSource_absent {s : State} {p : Station} (h : s.shut.sources[p] = none) :
    s.dropSource p = s := by
  have same : (s.modShut fun u => { u with sources := put u.sources p none }) = s := by
    simp only [State.modShut, ← h, put_self]
  unfold State.dropSource State.changeSources
  simp [same]

/-- R128: a member of the source set leaves it: the set alone changes while it is not empty. -/
theorem State.dropSource_member {s : State} {p : Station} (h : s.shut.sources[p].isSome = true) :
    (s.dropSource p).shut = { s.shut with sources := put s.shut.sources p none } ∧
    ((s.dropSource p).holdsBay = true → s.dropSource p = { s with shut := (s.dropSource p).shut }) ∧
    ((s.dropSource p).holdsBay = false → (s.dropSource p).flagSet .shutdown = true) := by
  have e := State.changeSources_of_held
    (fun s => s.modShut fun u => { u with sources := put u.sources p none })
    (State.holdsBay_of_source h)
  unfold State.dropSource
  rw [e]
  split
  next held => exact ⟨rfl, fun _ => rfl, fun free => absurd held (by simp [free])⟩
  next free =>
    have close := State.releasePumps_close
      ((s.modShut fun u => { u with sources := put u.sources p none }).raise .shutdown)
    refine ⟨close.shut, fun held => absurd ?_ free, fun _ => ?_⟩
    · rwa [State.holdsBay_congr close.shut] at held
    · exact State.flagSet_mono (by rw [BitVec.and_comm]; exact close.flags) _
        (State.raise_flagSet _ _)

/-- R140: the close of an event depends on the state before it by the items of an early beacon alone. -/
theorem State.settle_congr (s : State) {a b : State} (h : a.beaconKey = b.beaconKey) :
    s.settle a = s.settle b := by
  unfold State.settle State.earlyBeacon
  rw [h]

/-! ## Taking a frame of another station (R146) -/

theorem State.ownNumber_ne {s : State} {p : Station} (h : s.link.number ≠ some p) :
    s.ownNumber ≠ some p := by
  unfold State.ownNumber
  split
  · exact h
  · exact nofun

/-- R146, R150: a frame without the own number is applied by its owner. -/
theorem State.takeFrame_other {s : State} {kind : Nat} {f : RxFrame} {rest : List RxFrame}
    (apply : Station → List Byte → State → State) (front : s.link.rxQueue = f :: rest)
    (other : s.link.number ≠ some f.station) (k : f.kind = kind) :
    s.takeFrame kind apply =
      apply f.station f.payload { s with link := { s.link with rxQueue := rest } } := by
  unfold State.takeFrame
  rw [front]
  dsimp only
  rw [if_pos k]
  exact if_neg (State.ownNumber_ne (s := s.modLink fun l => { l with rxQueue := rest }) other)

section
variable {s s' : State} {f : RxFrame} {rest : List RxFrame}

theorem exec_spillFrameTaken (front : s.link.rxQueue = f :: rest)
    (other : s.link.number ≠ some f.station)
    (hs : s' = { s with link := { s.link with rxQueue := rest } }) (k : f.kind = 0) :
    exec .spillFrameTaken s = .next ((s'.takeSpill f.station f.payload).settle s') := by
  show execSpillFrameTaken s = _
  rw [hs, execSpillFrameTaken, State.takeFrame_other _ front other k]

theorem exec_restoreFrameTaken (front : s.link.rxQueue = f :: rest)
    (other : s.link.number ≠ some f.station)
    (hs : s' = { s with link := { s.link with rxQueue := rest } }) (k : f.kind = 1) :
    exec .restoreFrameTaken s = .next ((s'.dropSource f.station).settle s') := by
  show execRestoreFrameTaken s = _
  rw [hs, execRestoreFrameTaken, State.takeFrame_other _ front other k]

end

end Sys2Proof.Machine

namespace Sys2Proof.Settled

open Sys2Proof.Machine

/-! ## The statement -/

/-- Settles O48: a SPILL with the bay held and with the set empty, and a RESTORE of a station outside the
set and in it. -/
theorem spillAndRestore : Obligations.SpillAndRestore := by
  unfold Obligations.SpillAndRestore
  intro s s' f rest front other hs
  have shut : s'.shut = s.shut := by rw [hs]
  have holds : s'.holdsBay = s.holdsBay := State.holdsBay_congr shut
  refine ⟨fun spill => ?_, fun restore => ⟨fun absent => ?_, fun member => ?_⟩⟩
  · rw [exec_spillFrameTaken front other hs spill]
    refine ⟨_, rfl, ?_⟩
    cases h : s.holdsBay
    · obtain ⟨stopped, after, raised⟩ := State.takeSpill_free f.station f.payload (holds.trans h)
      rw [shut] at after
      refine ⟨by rw [after]; rfl, by rw [after]; rfl, ?_, nofun, fun _ =>
        ⟨stopped, raised, by rw [after]; rfl⟩⟩
      exact State.holdsBay_of_source (p := f.station) (by simp [after, Shutdown.spilt])
    · rw [State.takeSpill_held _ _ (holds.trans h)]
      refine ⟨?_, ?_, s'.spilt_holdsBay _ _, fun _ => ⟨rfl, ?_⟩, nofun⟩
      all_goals rw [← shut]; rfl
  · have notIn : s'.shut.sources[f.station] = none := by simpa only [shut] using absent
    have key : s'.beaconKey = s.beaconKey := by rw [hs]; rfl
    rw [exec_restoreFrameTaken front other hs restore, State.dropSource_absent notIn,
      s'.settle_congr key]
  · have inSet : s'.shut.sources[f.station].isSome = true := by simpa only [shut] using member
    rw [exec_restoreFrameTaken front other hs restore]
    obtain ⟨left, held, ended⟩ := State.dropSource_member inSet
    exact ⟨_, rfl, by rw [left, shut], held, ended⟩

end Sys2Proof.Settled
end
